-- ==== Sys2Proof/Word.lean ====
section
/-! DEFINITION. The word types of the LF2: the byte of the line link, the belt position and the
16-bit numbers that wrap. -/

namespace Sys2Proof

/-- One byte of the line link (R1). -/
abbrev Byte := BitVec 8

/-- A belt position, 0 to 16,777,215, taken mod 16,777,216 (R36, R174: three bytes). -/
abbrev Pos := BitVec 24

/-- A piece tag, 0 to 65,535, wrapping (R40). -/
abbrev Tag := BitVec 16

end Sys2Proof
end

