-- ==== Sys2Proof/Syntax.lean ====
section
/-! DEFINITION. The LF2's steps: one constructor of `Instr` for each row of spec/opcode_table.json.
The LF2 is a block: each step is a command from outside it (a unit on the inbound link, an encoder
step, an edge at an eye) or one of its own events (a track event, a completion), and carries what
that event brings with it. -/

namespace Sys2Proof

/-- The two transport lanes. -/
inductive Lane where
  | a
  | b
  deriving DecidableEq, Repr

/-- The two cancel heads of a lane, head L and head T (R115). -/
inductive HeadId where
  | l
  | t
  deriving DecidableEq, Repr

/-- The steps of the LF2. A row that takes a received unit carries the unit's bytes, from the
destination's line byte to the second check byte (R1, R3). A row that is a track event of one
record names its lane and tag (R43). A completion row carries nothing: its command, with its
arguments, is the one the Command Interpreter holds (R19). -/
inductive Instr where
  -- the whole part
  | powerOn
  | resetInput
  | resetInactive
  -- the line link
  | unitReceived (unit : List Byte)
  | sampleFrame (unit : List Byte)
  | commandFrame (unit : List Byte)
  | actStatusFrame (unit : List Byte)
  | transmissionEnd
  -- belt, eye and track events
  | beltStep (lane : Lane) (forward : Bool)
  | leadingEdge (lane : Lane)
  | trailingEdge (lane : Lane)
  | holdEnd (lane : Lane)
  | coveredLimit (lane : Lane)
  | overlengthPoint (lane : Lane) (tag : Tag)
  | sampleWaitExpiry (lane : Lane) (tag : Tag)
  | decisionPoint (lane : Lane) (tag : Tag)
  | strikeStart (lane : Lane) (head : HeadId) (tag : Tag)
  | strikeEnd (lane : Lane) (head : HeadId) (tag : Tag)
  | pocketPoint (lane : Lane) (tag : Tag)
  | retirement (lane : Lane) (tag : Tag)
  | windowEnd (lane : Lane)
  -- the part's own engines
  | commandTake
  | engineTake
  | scoringComplete
  | entryApplication
  -- completions of commands
  | unknownCommand
  | linkAddress
  | linkCountersClear
  | statusRead
  | laneTrackRead
  | noticeMask
  | pieceReport
  | reportFlush
  | clearIndications
  | lineReset
  | laneStart
  | laneStop
  | jamClear
  | pieceAudit
  | auditRead
  | auditRelease
  | inkRefill
  | dieDate
  | sweepStart
  | sweepDone
  | countSnapshot
  | tableOpen
  | tableFill
  | tableCommit
  | tableAbandon
  | tableStatusClear
  | tableSuspend
  | tableResume
  | tableLock
  | tableRead
  deriving DecidableEq, Repr

end Sys2Proof
end

