-- ==== Sys2Proof/Decode.lean ====
section
/-! DEFINITION. Steps that a word spells by the bits of the table. The LF2 decodes no instruction
words, and spec/opcode_table.json gives no row any bits. -/

namespace Sys2Proof

/-- The step that a word spells by the table's bits: none, as no row of the table gives bits. -/
def decodeTableWord (_nbits _w : Nat) : Option Instr := none

end Sys2Proof
end

