-- ==== Sys2Proof/Machine/Check.lean ====
section
/-! DEFINITION. The 16-bit check of a frame and the byte order of wide fields. -/

namespace Sys2Proof.Machine

/-- One bit into the check register (R2): shift left, and add 0x1021 when the top bit differs from
the incoming bit. -/
def crcBit (r : BitVec 16) (b : Bool) : BitVec 16 :=
  if r.msb != b then (r <<< 1) ^^^ 0x1021#16 else r <<< 1

/-- One byte into the check register, most significant bit first (R2). -/
def crcByte (r : BitVec 16) (x : Byte) : BitVec 16 :=
  [7, 6, 5, 4, 3, 2, 1, 0].foldl (fun r i => crcBit r (x.getLsbD i)) r

/-- The check of a run of bytes: preset to all ones, not inverted at the end (R2). -/
def crc (bs : List Byte) : BitVec 16 := bs.foldl crcByte 0xFFFF#16

/-- A number in `n` bytes, most significant byte first (R174). -/
def beBytes : Nat → Nat → List Byte
  | 0, _ => []
  | n + 1, x => BitVec.ofNat 8 (x / 256 ^ n) :: beBytes n x

/-- The number that bytes spell, most significant byte first (R174). -/
def beNat (bs : List Byte) : Nat := bs.foldl (fun acc b => acc * 256 + b.toNat) 0

/-- The check in its field, high byte first (R2). -/
def checkBytes (bs : List Byte) : List Byte := beBytes 2 (crc bs).toNat

end Sys2Proof.Machine
end

