-- ==== Sys2Proof/Config.lean ====
section
/-! DEFINITION. The sizes the spec fixes, and the free choices it leaves open. -/

namespace Sys2Proof.Config

/-- Places of the pass-through FIFO (R9). -/
def fifoDepth : Nat := 4
/-- Places of each ACT queue (R11). -/
def actDepth : Nat := 8
/-- Places of the command queue (R18). -/
def commandDepth : Nat := 4
/-- Slots of the Report Queue (R23). -/
def reportSlots : Nat := 32
/-- Records of each track list (R40). -/
def listDepth : Nat := 24
/-- Scan slots (R73). -/
def scanSlots : Nat := 8
/-- Strikes of each booking list (R120). -/
def bookingDepth : Nat := 4
/-- Entries of each band ring (R63). -/
def ringSize : Nat := 1024
/-- A sample this many steps ahead of the belt is still filed (R62). -/
def sampleAhead : Int := 2048
/-- List size from which the feed rate is SLOW (R159). -/
def slowListSize : Nat := 20
/-- Entries of the Signature Table (R92). -/
def signatureCapacity : Nat := 256
/-- Ceiling of the 16-bit counters (R14, R24, R155). -/
def max16 : Nat := 65535
/-- Ceiling of the 32-bit counters (R145, R148). -/
def max32 : Nat := 4294967295
/-- Ceiling of the scoring sum (R86). -/
def maxSum : Nat := 524287

/-- A free choice, never given a value: where the spec has two effects in one step and does not
say which comes first (a broadcast's two copies, the two lanes of one SAMPLE frame, the two lanes'
SAFE frames of a line reset), the model takes the order from here.
DESIGN CHOICE, safe (log entry 3). -/
opaque freeOrder : Nat → Bool

/-- Whether a commit accepts an entry whose unused bytes are not as the layout gives them, which
the spec does not state. DESIGN CHOICE, safe (log entry 4). -/
opaque acceptStrayBytes : List Byte → Bool

end Sys2Proof.Config
end

