-- ==== Sys2Proof/Machine/State.lean ====
section
/-! DEFINITION. The state of the LF2 as plain data, and its value at power-on. -/

namespace Sys2Proof.Machine

/-! ### Families of like things -/

/-- One thing for each lane. -/
structure PerLane (α : Type) where
  a : α
  b : α
  deriving DecidableEq, Repr

/-- One thing for each cancel head of a lane. -/
structure PerHead (α : Type) where
  l : α
  t : α
  deriving DecidableEq, Repr

/-- The four bands of a lane. -/
inductive Band where
  | aTop
  | aBottom
  | bTop
  | bBottom
  deriving DecidableEq, Repr

/-- One thing for each band. -/
structure PerBand (α : Type) where
  aTop : α
  aBottom : α
  bTop : α
  bBottom : α
  deriving DecidableEq, Repr

/-- The four corners (00_scope, R71). -/
inductive Corner where
  | c1
  | c2
  | c3
  | c4
  deriving DecidableEq, Repr

/-- One thing for each corner. -/
structure PerCorner (α : Type) where
  c1 : α
  c2 : α
  c3 : α
  c4 : α
  deriving DecidableEq, Repr

/-- The four monitors of a lane (R153). -/
inductive MonitorId where
  | reject
  | late
  | shingle
  | reference
  deriving DecidableEq, Repr

/-- One thing for each monitor. -/
structure PerMonitor (α : Type) where
  reject : α
  late : α
  shingle : α
  reference : α
  deriving DecidableEq, Repr

/-- The two scan channels. -/
inductive Channel where
  | ph
  | fl
  deriving DecidableEq, Repr

/-! ### Names of values -/

/-- A station address, or the addresses of a frame (R1). -/
structure Station where
  line : Byte
  position : Byte
  deriving DecidableEq, Repr

/-- Compare modes (R5). -/
inductive CompareMode where
  | nothing
  | line
  | position
  | both
  deriving DecidableEq, Repr

/-- Lane states (R45). -/
inductive LaneState where
  | stopped
  | running
  | draining
  | jammed
  deriving DecidableEq, Repr

/-- Eye states with what the tracker keeps in each (R49): the covered start while COVERED or
PASSING, the hold end and whether the previous piece was captured while in GAP_HOLD. -/
inductive Eye where
  | idle
  | armed
  | covered (start : Pos)
  | passing (start : Pos)
  | gapHold (holdEnd : Pos) (captured : Bool)
  deriving DecidableEq, Repr

/-- Jam causes (R57). -/
inductive JamCause where
  | eyeBlocked
  | reverse
  | noPocket
  | actOverrun
  | actuatorFault
  deriving DecidableEq, Repr

/-- Reasons of a failed scan (R41). -/
inductive FailReason where
  | late
  | withdrawn
  | jam
  deriving DecidableEq, Repr

/-- Scan states (R41). -/
inductive ScanState where
  | collecting
  | slotWait
  | queued
  | scoring
  | scored
  | failed (reason : FailReason)
  deriving DecidableEq, Repr

/-- Gate settings (R102). -/
inductive GateSetting where
  | pass
  | flip
  deriving DecidableEq, Repr

/-- Output streams. -/
inductive Stream where
  | l
  | t
  | x
  deriving DecidableEq, Repr

/-- Route classes (R41). -/
inductive RouteClass where
  | cancelled
  | hand
  | meter
  | permit
  | reject
  deriving DecidableEq, Repr

/-- Reasons of a suppressed strike (R41). -/
inductive SuppressReason where
  | ink
  | die
  | fault
  deriving DecidableEq, Repr

/-- Cancel states (R41). -/
inductive CancelState where
  | nothing
  | booked
  | struck
  | missed
  | suppressed (reason : SuppressReason)
  | notRequired
  deriving DecidableEq, Repr

/-- The fifteen dispositions, in the order of R41. -/
inductive Disposition where
  | facedCancelled
  | facedPrecancel
  | facedHand
  | facedMeter
  | facedPermit
  | rejectDouble
  | rejectLate
  | rejectScan
  | rejectNomark
  | rejectAmbiguous
  | rejectGate
  | rejectPocket
  | glitch
  | jamLost
  | resetLost
  deriving DecidableEq, Repr

/-- Kinds of a profile (R83). -/
inductive MarkKind where
  | stamp
  | meter
  | permit
  deriving DecidableEq, Repr

/-- Pocket states (R130). -/
inductive PocketState where
  | opened
  | full
  | sweepWait
  | sweep
  deriving DecidableEq, Repr

/-- Feed rates (R159). -/
inductive FeedRate where
  | full
  | slow
  | hold
  deriving DecidableEq, Repr

/-- The six tables (R161). -/
inductive Table where
  | ink
  | signature
  | geometry
  | stacker
  | monitor
  | die
  deriving DecidableEq, Repr

/-- Response codes, in the order of the table of 2.2. -/
inductive ResponseCode where
  | done
  | badCommand
  | badArgument
  | notReady
  | wrongState
  | locked
  | sequence
  | errorsPending
  | tableBusy
  | nestedBusy
  | interlock
  | range
  | duplicate
  | full
  deriving DecidableEq, Repr

/-- Requesters of the outbound link other than ACT (R12). -/
inductive Requester where
  | pass
  | report
  deriving DecidableEq, Repr

/-- Indication latches, in the order of R29. -/
inductive Latch where
  | laneChange
  | jam
  | monitorReject
  | monitorLate
  | monitorShingle
  | monitorReference
  | pocketFull
  | inkLow
  | inkOut
  | noticeLost
  | tableError
  deriving DecidableEq, Repr

/-- Notice classes, in the order of R25. -/
inductive NoticeClass where
  | lane
  | jam
  | monitor
  | pocket
  | tray
  | ink
  | head
  | piece
  deriving DecidableEq, Repr

/-- Sticky flags of the Table Store, in the order of R163. -/
inductive StickyFlag where
  | sequence
  | range
  | duplicate
  | full
  | lock
  | interlock
  | aborted
  deriving DecidableEq, Repr

/-! ### Tables -/

/-- A Lane Geometry record with its loaded flag (R38). -/
structure Geometry where
  loaded : Bool
  scanSource : Station
  minLen : Nat
  maxLen : Nat
  minGap : Nat
  maxCovered : Nat
  sampleWait : Nat
  cornerLen : Nat
  refSeedPH : Nat
  refSeedFL : Nat
  refGuard : Nat
  dDecide : Nat
  dGate : Nat
  gateSettle : Nat
  dHeadL : Nat
  dHeadT : Nat
  leadIn : Nat
  strikeLen : Nat
  recoverLen : Nat
  dPocket : Nat
  dStack : Nat
  reverseLimit : Nat
  deriving DecidableEq, Repr

/-- A profile of the Ink Profile Table (R83). -/
structure Profile where
  enable : Bool
  channel : Channel
  kind : MarkKind
  scoreMin : Nat
  scoreMax : Nat
  runMin : Nat
  runMax : Nat
  deriving DecidableEq, Repr

/-- The channel record, entry 8 of the Ink Profile Table (R82). -/
structure ChannelRecord where
  floorPH : Nat
  floorFL : Nat
  runLevelPH : Nat
  runLevelFL : Nat
  deriving DecidableEq, Repr

/-- A signature key (R92). -/
structure SigKey where
  profile : Fin 8
  width : Fin 32
  band : Fin 64
  deriving DecidableEq, Repr

/-- An entry of the Signature Table (R92). -/
structure SigEntry where
  key : SigKey
  category : Fin 64
  value : Nat
  precancel : Bool
  deriving DecidableEq, Repr

/-- The level pair of a pocket (R131). -/
structure Levels where
  fullLevel : Nat
  hardLevel : Nat
  deriving DecidableEq, Repr

/-- One lane's half of the Stacker Map (R131): the nine pocket lists in the order of R172 and the
ten level pairs. -/
structure Stacker where
  routes : Vector (List (Fin 10)) 9
  levels : Vector Levels 10
  deriving DecidableEq, Repr

/-- A monitor entry of the Monitor Profile (R153). -/
structure MonitorEntry where
  enable : Bool
  limit : Nat
  declareN : Nat
  clearM : Nat
  deriving DecidableEq, Repr

/-- The Monitor Profile (R153). -/
structure MonitorProfile where
  winLen : Nat
  monitors : PerMonitor MonitorEntry
  deriving DecidableEq, Repr

/-- The common record of the Die Table (R126). -/
structure DieCommon where
  officeCode : List Byte
  officeName : List Byte
  lineNumber : Nat
  loaded : Bool
  deriving DecidableEq, Repr

/-- A head record of the Die Table (R126). -/
structure DieHead where
  text : List Byte
  inkCost : Nat
  inkLow : Nat
  deriving DecidableEq, Repr

/-- The postmark date and hour (R127). -/
structure PostDate where
  year : Nat
  month : Nat
  day : Nat
  hour : Nat
  deriving DecidableEq, Repr

/-- The six tables (R161). -/
structure Tables where
  profiles : Vector Profile 8
  channels : ChannelRecord
  signature : List SigEntry
  geometry : PerLane Geometry
  stacker : PerLane Stacker
  monitor : MonitorProfile
  dieCommon : DieCommon
  dieHeads : PerLane (PerHead DieHead)
  deriving DecidableEq, Repr

/-- One staged entry, read as its table's layout gives it (R161, 12.4). -/
inductive Entry where
  | profile (n : Fin 8) (p : Profile)
  | channels (c : ChannelRecord)
  | put (e : SigEntry)
  | drop (k : SigKey)
  | geometry (lane : Lane) (g : Geometry)
  | route (lane : Lane) (route : Fin 9) (pockets : List (Fin 10))
  | levels (lane : Lane) (pocket : Fin 10) (levels : Levels)
  | window (winLen : Nat)
  | monitor (id : MonitorId) (e : MonitorEntry)
  | dieCommon (c : DieCommon)
  | dieHead (lane : Lane) (head : HeadId) (h : DieHead)
  deriving DecidableEq, Repr

/-! ### Commands and frames -/

/-- An accepted command (R18, R21): its sender, code, number and arguments. -/
structure Cmd where
  src : Station
  code : Byte
  number : Byte
  args : List Byte
  deriving DecidableEq, Repr

/-- The lane set of a TABLE_OPEN (R164). -/
inductive LaneSet where
  | onlyA
  | onlyB
  | both
  deriving DecidableEq, Repr

/-- A write that is being staged (R162): `received` holds the bytes of each entry after its table
byte, in the order received. -/
structure Staged where
  table : Table
  laneSet : LaneSet
  count : Nat
  received : List (List Byte)
  deriving DecidableEq, Repr

/-- A committed write (R167, R168): its entries still to be applied, in the order of application,
its progress figures, and the TABLE_COMMIT whose reservation it holds. -/
structure Programming where
  table : Table
  total : Nat
  applied : Nat
  todo : List Entry
  commit : Cmd
  deriving DecidableEq, Repr

/-- The store states with their buffers (R162); PROGRAMMING carries the suspend mark (R169). -/
inductive Phase where
  | ready
  | staging (w : Staged)
  | programming (p : Programming) (mark : Bool)
  | suspended (p : Programming)
  | nestedStaging (p : Programming) (w : Staged)
  | nestedProgramming (p : Programming) (q : Programming)
  deriving DecidableEq, Repr

/-- The die as captured at a booking (R119). -/
structure Die where
  officeCode : List Byte
  officeName : List Byte
  lineNumber : Nat
  date : PostDate
  text : List Byte
  deriving DecidableEq, Repr

/-- What an ACT frame says after its type and lane (12.1). -/
inductive ActMsg where
  | gate (tag : Tag) (setting : GateSetting) (execute settled : Pos)
  | divert (tag : Tag) (stream : Stream) (execute release : Pos)
  | strike (head : HeadId) (tag : Tag) (execute stop : Pos) (die : Die)
  | pocket (tag : Tag) (pocket : Fin 10) (execute release : Pos)
  | feed (rate : FeedRate)
  | safe
  deriving DecidableEq, Repr

/-- A tray record (R141). -/
structure Tray where
  lane : Lane
  pocket : Fin 10
  count : Nat
  valueSum : Nat
  firstTag : Option Tag
  lastTag : Option Tag
  deriving DecidableEq, Repr

/-- A piece report record (R26). -/
structure PieceReport where
  tag : Tag
  lane : Lane
  disposition : Option Disposition
  corner : Option Corner
  category : Option (Fin 64)
  pocket : Option (Fin 10)
  length : Option Nat
  deriving DecidableEq, Repr

/-- The notice records (12.3). -/
inductive NoticeMsg where
  | lane (lane : Lane) (left entered : LaneState) (size : Nat)
  | jam (lane : Lane) (cause : JamCause) (left : LaneState) (belt : Pos) (size : Nat)
  | monitor (lane : Lane) (id : MonitorId) (declared : Bool) (endPos : Pos) (count limit run : Nat)
  | pocketFull (lane : Lane) (pocket : Fin 10) (count inbound fullLevel : Nat)
  | tray (t : Tray)
  | inkLow (lane : Lane) (head : HeadId) (units inkLow : Nat)
  | inkOut (lane : Lane) (head : HeadId) (units cost : Nat)
  | head (lane : Lane) (head : HeadId) (fault : Bool) (strikes : Nat)
  | piece (records : List PieceReport)
  | refused (code number : Byte)
  deriving DecidableEq, Repr

/-- The content of a frame the LF2 originates (R10). -/
inductive Body where
  | act (lane : Lane) (m : ActMsg)
  | response (code number : Byte) (rc : ResponseCode) (data : List Byte)
  | notice (serial : BitVec 16) (m : NoticeMsg)
  deriving DecidableEq, Repr

/-- A frame the LF2 originates, with the addresses its header was given (R10). Its length, payload
bytes and check follow from these (`OutFrame.bytes`). -/
structure OutFrame where
  dest : Station
  src : Station
  body : Body
  deriving DecidableEq, Repr

/-- A frame the transmitter holds (R13): one of the part's own, or one that passes through. -/
inductive Outgoing where
  | own (f : OutFrame)
  | passed (unit : List Byte)
  deriving DecidableEq, Repr

/-! ### The pieces -/

/-- A hit finding's own fields (R96). -/
structure Hit where
  corner : Corner
  profile : Fin 8
  kind : MarkKind
  score : Nat
  run : Nat
  stampStart : Nat
  category : Option (Fin 64)
  deriving DecidableEq, Repr

/-- Results of a finding (R90). -/
inductive FindingResult where
  | noData
  | noMark
  | ambiguous
  | hit (h : Hit)
  deriving DecidableEq, Repr

/-- A finding record (R96). -/
structure Finding where
  result : FindingResult
  value : Nat
  precancel : Bool
  multi : Bool
  staleRef : Bool
  deriving DecidableEq, Repr

/-- A piece record (R41), and which of its track events have been taken or are due (R43). The
overlength point, decision point and pocket point are due from capture; the sample-wait expiry is
due from the trailing edge that gives the length; the retirement is due while the length is
present. -/
structure Piece where
  tag : Tag
  lead : Pos
  length : Option Nat
  shingled : Bool
  overlength : Bool
  lateFound : Bool
  staleRef : Bool
  multi : Bool
  scan : ScanState
  finding : Option Finding
  gate : Option GateSetting
  stream : Option Stream
  route : Option RouteClass
  cancel : CancelState
  strikeStart : Option Pos
  pocket : Option (Fin 10)
  disposition : Option Disposition
  value : Nat
  overlengthTaken : Bool
  sampleWaitDue : Bool
  decisionTaken : Bool
  pocketTaken : Bool
  deriving DecidableEq, Repr

/-- One sample's values, clamped (R62). -/
structure Sample where
  ph : Nat
  fl : Nat
  deriving DecidableEq, Repr

/-- An entry of a band ring that is not empty (R63). -/
structure RingEntry where
  pos : Pos
  sample : Sample
  deriving DecidableEq, Repr

/-- A band ring (R63): the entries that are not empty, by entry number, numbers strictly rising. -/
abbrev Ring := List (Nat × RingEntry)

/-- The references of one band (R66). -/
structure Refs where
  ph : Nat
  fl : Nat
  deriving DecidableEq, Repr

/-- A scan job, the content of a slot (R71). A missing sample is `none`. -/
structure Job where
  lane : Lane
  tag : Tag
  lead : Pos
  length : Nat
  m : Nat
  windows : PerCorner (List (Option Sample))
  refs : PerBand Refs
  deriving DecidableEq, Repr

/-- The results of one corner in one channel (5.3). -/
structure ChannelResult where
  score : Nat
  run : Nat
  first : Nat
  missing : Nat
  deriving DecidableEq, Repr

/-- The results of one corner (R77, R85 to R89). -/
structure CornerResult where
  ph : ChannelResult
  fl : ChannelResult
  isVoid : Bool
  hit : Option (Fin 8)
  deriving DecidableEq, Repr

/-- The content of a full audit store (R77). -/
structure Audit where
  lane : Lane
  tag : Tag
  m : Nat
  windows : PerCorner (List (Option Sample))
  refs : PerBand Refs
  corners : PerCorner CornerResult
  result : FindingResult
  deriving DecidableEq, Repr

/-! ### The blocks -/

/-- The four link counters (R14). -/
structure LinkCounters where
  checkErrors : Nat
  formatErrors : Nat
  kindUnknown : Nat
  passDrops : Nat
  deriving DecidableEq, Repr

/-- The Link Port (chapter 1). -/
structure Link where
  station : Station
  mode : CompareMode
  controller : Station
  counters : LinkCounters
  fifo : List (List Byte)
  act : PerLane (List OutFrame)
  lastAct : Lane
  lastGrant : Requester
  sending : Option Outgoing
  deriving DecidableEq, Repr

/-- The Command Interpreter (R19). -/
structure Interp where
  queue : List Cmd
  executing : Option Cmd
  deriving DecidableEq, Repr

/-- The Report Queue (R23 to R31): queued frames, oldest first, the number of reserved slots, the
open batch, mask, serial and latches. -/
structure Reports where
  queued : List OutFrame
  reserved : Nat
  batch : List PieceReport
  batchLevel : Nat
  mask : BitVec 8
  nextSerial : BitVec 16
  noticeLost : Nat
  latches : BitVec 11
  deriving DecidableEq, Repr

/-- A strike of a booking list (R115); `started` says that its strike start has been taken. -/
structure Strike where
  tag : Tag
  start : Pos
  stop : Pos
  cost : Nat
  die : Die
  started : Bool
  deriving DecidableEq, Repr

/-- A cancel head (R115). -/
structure Head where
  booking : List Strike
  freePos : Pos
  units : Nat
  reserved : Nat
  fault : Bool
  ink : Bool
  deriving DecidableEq, Repr

/-- The gate state (R102). -/
structure Gate where
  setting : GateSetting
  freePos : Pos
  deriving DecidableEq, Repr

/-- A pocket record (R130). -/
structure Pocket where
  state : PocketState
  count : Nat
  inbound : Nat
  valueSum : Nat
  firstTag : Option Tag
  lastTag : Option Tag
  deriving DecidableEq, Repr

/-- The 25 lane counters (R145); the fifteen disposition counters in the order of R41. -/
structure LaneCounters where
  captured : Nat
  untracked : Nat
  dispositions : Vector Nat 15
  strikes : Nat
  missed : Nat
  suppressed : Nat
  shingled : Nat
  lateFound : Nat
  staleRef : Nat
  sampleRange : Nat
  auditSkipped : Nat
  deriving DecidableEq, Repr

/-- A category record (R148). -/
structure CategoryRecord where
  pieces : Nat
  valueTotal : Nat
  deriving DecidableEq, Repr

/-- A monitor window (R154) with its counts (R155). -/
structure Window where
  start : Pos
  stop : Pos
  profile : MonitorProfile
  reject : Nat
  late : Nat
  shingle : Nat
  reference : PerBand Nat
  deriving DecidableEq, Repr

/-- The state of one monitor (R157). -/
structure Monitor where
  declared : Bool
  badRun : Nat
  goodRun : Nat
  deriving DecidableEq, Repr

/-- Everything that belongs to one lane: its Lane Tracker (R61), its part of Scan Capture (R76),
its Facing Unit (R102), Cancel Scheduler (R115), Pocket Manager (R130), lane counters (R145) and
part of the Transport Monitor (10.5), and its eye input (R49). -/
structure LaneS where
  state : LaneState
  eye : Eye
  eyeCovered : Bool
  belt : Pos
  list : List Piece
  nextTag : Tag
  forwardMark : Option Pos
  rings : PerBand Ring
  highMarks : PerBand (Option Pos)
  refs : PerBand Refs
  auditCounter : Nat
  gate : Gate
  heads : PerHead Head
  pockets : Vector Pocket 10
  counters : LaneCounters
  window : Option Window
  monitors : PerMonitor Monitor
  feedRate : FeedRate
  deriving DecidableEq, Repr

/-- The shared part of Scan Capture (R70, R77). The slots held are the jobs of the scoring queues
and the engine (R73). -/
structure Scan where
  waitList : List (Lane × Tag)
  auditInterval : Nat
  auditStore : Option Audit
  deriving DecidableEq, Repr

/-- The Corner Scorer (R79, R80). -/
structure Scorer where
  queues : PerLane (List Job)
  engine : Option Job
  lastServed : Lane
  deriving DecidableEq, Repr

/-- The Table Store (R162, R163, R171). -/
structure Store where
  phase : Phase
  flags : BitVec 7
  lockInk : Bool
  lockGeometry : Bool
  lockDie : Bool
  tables : Tables
  deriving DecidableEq, Repr

/-- The whole part. `resetActive` is the level of the RESET input (R34); `date` the postmark date
(R127). `pending` is the queue of steps that wait and `freeCount` the number of free choices
drawn so far: both are the model's own. -/
structure State where
  link : Link
  interp : Interp
  reports : Reports
  lanes : PerLane LaneS
  scan : Scan
  scorer : Scorer
  categories : Vector CategoryRecord 64
  store : Store
  date : Option PostDate
  resetActive : Bool
  freeCount : Nat
  pending : List Instr
  deriving DecidableEq, Repr

/-- Reasons for which the machine would stop. The spec names none: every step of the LF2 goes on,
so no constructor is declared and no step faults. -/
inductive Fault where
  deriving DecidableEq, Repr

/-- Reasons for which a step has no meaning in this model. -/
inductive Refusal where
  /-- Raised by an arm of `exec` whose step is not modelled; no arm raises it. Safe: the model stops
  where the part goes on. -/
  | notModelled (mnemonic : String)
  deriving DecidableEq, Repr

/-! ### Power-on values -/

/-- Text of `n` spaces (R126). -/
def spaces (n : Nat) : List Byte := List.replicate n 0x20#8

/-- A Lane Geometry record at power-on: not loaded, every field 0 (R38). -/
def Geometry.initial : Geometry :=
  { loaded := false, scanSource := ⟨0, 0⟩, minLen := 0, maxLen := 0, minGap := 0, maxCovered := 0
    sampleWait := 0, cornerLen := 0, refSeedPH := 0, refSeedFL := 0, refGuard := 0, dDecide := 0
    dGate := 0, gateSettle := 0, dHeadL := 0, dHeadT := 0, leadIn := 0, strikeLen := 0
    recoverLen := 0, dPocket := 0, dStack := 0, reverseLimit := 0 }

/-- A profile at power-on: disabled, its other fields 0 (R83). -/
def Profile.initial : Profile :=
  { enable := false, channel := .ph, kind := .stamp, scoreMin := 0, scoreMax := 0, runMin := 0
    runMax := 0 }

/-- A half of the Stacker Map at power-on: lists empty, levels 500 and 550 (R131). -/
def Stacker.initial : Stacker :=
  { routes := Vector.replicate 9 [], levels := Vector.replicate 10 ⟨500, 550⟩ }

/-- A monitor entry at power-on (R153). -/
def MonitorEntry.initial : MonitorEntry :=
  { enable := false, limit := 0, declareN := 1, clearM := 1 }

/-- The Monitor Profile at power-on (R153). -/
def MonitorProfile.initial : MonitorProfile :=
  { winLen := 10000, monitors := ⟨.initial, .initial, .initial, .initial⟩ }

/-- A head record of the Die Table at power-on (R126). -/
def DieHead.initial : DieHead := { text := spaces 16, inkCost := 1, inkLow := 0 }

/-- The tables at power-on (R161). -/
def Tables.initial : Tables :=
  { profiles := Vector.replicate 8 .initial
    channels := { floorPH := 0, floorFL := 0, runLevelPH := 0, runLevelFL := 0 }
    signature := []
    geometry := ⟨.initial, .initial⟩
    stacker := ⟨.initial, .initial⟩
    monitor := .initial
    dieCommon := { officeCode := spaces 6, officeName := spaces 20, lineNumber := 0, loaded := false }
    dieHeads := ⟨⟨.initial, .initial⟩, ⟨.initial, .initial⟩⟩ }

/-- A head at power-on: no ink, INK inhibit set (R115). -/
def Head.initial : Head :=
  { booking := [], freePos := 0, units := 0, reserved := 0, fault := false, ink := true }

/-- A pocket at power-on (R130). -/
def Pocket.initial : Pocket :=
  { state := .opened, count := 0, inbound := 0, valueSum := 0, firstTag := none, lastTag := none }

/-- Lane counters all 0 (R152). -/
def LaneCounters.zero : LaneCounters :=
  { captured := 0, untracked := 0, dispositions := Vector.replicate 15 0, strikes := 0, missed := 0
    suppressed := 0, shingled := 0, lateFound := 0, staleRef := 0, sampleRange := 0
    auditSkipped := 0 }

/-- A monitor that is CLEAR with both runs 0 (R157). -/
def Monitor.clear : Monitor := { declared := false, badRun := 0, goodRun := 0 }

/-- A lane at power-on (R61, R76, R102, R115, R130, R152, 10.5). Its eye input is taken as
uncovered: DESIGN CHOICE (log entry 2). -/
def LaneS.initial : LaneS :=
  { state := .stopped, eye := .idle, eyeCovered := false, belt := 0, list := [], nextTag := 0
    forwardMark := none, rings := ⟨[], [], [], []⟩, highMarks := ⟨none, none, none, none⟩
    refs := ⟨⟨0, 0⟩, ⟨0, 0⟩, ⟨0, 0⟩, ⟨0, 0⟩⟩, auditCounter := 0
    gate := { setting := .pass, freePos := 0 }, heads := ⟨.initial, .initial⟩
    pockets := Vector.replicate 10 .initial, counters := .zero, window := none
    monitors := ⟨.clear, .clear, .clear, .clear⟩, feedRate := .hold }

/-- The notice mask at power-on: every class on except PIECE (R25). -/
def maskAtPowerOn : BitVec 8 := 0x7F#8

/-- The part after power-on (R17, R35, R61, R76, R79, R102, R115, R130, R152, R161, R173). The
levels of the three external inputs are a DESIGN CHOICE (log entry 2); `pending` and `freeCount`
are the model's own (log entries 1 and 3). -/
def State.reset : State :=
  { link :=
      { station := ⟨0, 0⟩, mode := .nothing, controller := ⟨0xFF, 0xFF⟩
        counters := { checkErrors := 0, formatErrors := 0, kindUnknown := 0, passDrops := 0 }
        fifo := [], act := ⟨[], []⟩, lastAct := .b, lastGrant := .report, sending := none }
    interp := { queue := [], executing := none }
    reports :=
      { queued := [], reserved := 0, batch := [], batchLevel := 8, mask := maskAtPowerOn
        nextSerial := 0, noticeLost := 0, latches := 0 }
    lanes := ⟨.initial, .initial⟩
    scan := { waitList := [], auditInterval := 0, auditStore := none }
    scorer := { queues := ⟨[], []⟩, engine := none, lastServed := .b }
    categories := Vector.replicate 64 { pieces := 0, valueTotal := 0 }
    store :=
      { phase := .ready, flags := 0, lockInk := false, lockGeometry := false, lockDie := false
        tables := .initial }
    date := none
    resetActive := false
    freeCount := 0
    pending := [] }

end Sys2Proof.Machine
end

