-- ==== Sys2Proof/Machine/Ops.lean ====
section
/-! DEFINITION. Shared operations on positions, indexed families, lanes, records and counters. -/

namespace Sys2Proof.Machine

/-! ### Belt positions (R37) -/

/-- Half of the range of positions. -/
def halfRange : Nat := 8388608

/-- Position `p` has been reached by position `q`: (q − p) mod 16,777,216 < 8,388,608. Also read as
"q lies at or beyond p" (R37). -/
def reached (q p : Pos) : Bool := (q - p).toNat < halfRange

/-- Position `q` lies beyond `p`: at or beyond it and different from it (R37). -/
def beyond (q p : Pos) : Bool := reached q p && q != p

/-- The position `n` steps past `p`. -/
def advance (p : Pos) (n : Nat) : Pos := p + BitVec.ofNat 24 n

/-- The signed distance of `a` from `b` (R37). -/
def signedDistance (a b : Pos) : Int :=
  if (a - b).toNat < halfRange then ((a - b).toNat : Int) else ((a - b).toNat : Int) - 16777216

/-- The pitch cell of a position (R63). -/
def pitchCell (p : Pos) : Nat := p.toNat / 2

/-- A counter that stops at its maximum. -/
def satInc (ceiling n : Nat) : Nat := min (n + 1) ceiling

/-! ### Families -/

/-- The lane other than `l`. -/
def otherLane : Lane → Lane
  | .a => .b
  | .b => .a

/-- The member for a lane. -/
def PerLane.get {α : Type} (p : PerLane α) : Lane → α
  | .a => p.a
  | .b => p.b

/-- The family with one lane's member replaced. -/
def PerLane.set {α : Type} (p : PerLane α) (l : Lane) (x : α) : PerLane α :=
  match l with
  | .a => { p with a := x }
  | .b => { p with b := x }

/-- The member for a head. -/
def PerHead.get {α : Type} (p : PerHead α) : HeadId → α
  | .l => p.l
  | .t => p.t

/-- The family with one head's member replaced. -/
def PerHead.set {α : Type} (p : PerHead α) (h : HeadId) (x : α) : PerHead α :=
  match h with
  | .l => { p with l := x }
  | .t => { p with t := x }

/-- The member for a band. -/
def PerBand.get {α : Type} (p : PerBand α) : Band → α
  | .aTop => p.aTop
  | .aBottom => p.aBottom
  | .bTop => p.bTop
  | .bBottom => p.bBottom

/-- The family with one band's member replaced. -/
def PerBand.set {α : Type} (p : PerBand α) (b : Band) (x : α) : PerBand α :=
  match b with
  | .aTop => { p with aTop := x }
  | .aBottom => { p with aBottom := x }
  | .bTop => { p with bTop := x }
  | .bBottom => { p with bBottom := x }

/-- The same thing for every band. -/
def PerBand.all {α : Type} (x : α) : PerBand α := ⟨x, x, x, x⟩

/-- The member for a corner. -/
def PerCorner.get {α : Type} (p : PerCorner α) : Corner → α
  | .c1 => p.c1
  | .c2 => p.c2
  | .c3 => p.c3
  | .c4 => p.c4

/-- The member for a monitor. -/
def PerMonitor.get {α : Type} (p : PerMonitor α) : MonitorId → α
  | .reject => p.reject
  | .late => p.late
  | .shingle => p.shingle
  | .reference => p.reference

/-- The family with one monitor's member replaced. -/
def PerMonitor.set {α : Type} (p : PerMonitor α) (m : MonitorId) (x : α) : PerMonitor α :=
  match m with
  | .reject => { p with reject := x }
  | .late => { p with late := x }
  | .shingle => { p with shingle := x }
  | .reference => { p with reference := x }

/-! ### Lanes -/

/-- One lane of the part. -/
def State.lane (s : State) (l : Lane) : LaneS := s.lanes.get l

/-- The part with one lane changed. -/
def State.modLane (s : State) (l : Lane) (f : LaneS → LaneS) : State :=
  { s with lanes := s.lanes.set l (f (s.lanes.get l)) }

/-- The lane's Lane Geometry record (R38). -/
def State.geometry (s : State) (l : Lane) : Geometry := s.store.tables.geometry.get l

/-- The lane is RUNNING or DRAINING, the states in which its events are taken (R43). -/
def LaneS.active (x : LaneS) : Bool := x.state == .running || x.state == .draining

/-- A lane with its counters changed. -/
def LaneS.count (f : LaneCounters → LaneCounters) (x : LaneS) : LaneS :=
  { x with counters := f x.counters }

/-- The part with one lane's counters changed (R145). -/
def State.count (s : State) (l : Lane) (f : LaneCounters → LaneCounters) : State :=
  s.modLane l (LaneS.count f)

/-- The lane's current window changed, if it has one: a hand-off without a window is dropped
(R155). -/
def State.countWindow (s : State) (l : Lane) (f : Window → Window) : State :=
  s.modLane l fun x => { x with window := x.window.map f }

/-- One cancel head of a lane. -/
def State.head (s : State) (l : Lane) (h : HeadId) : Head := (s.lane l).heads.get h

/-- The part with one cancel head changed. -/
def State.modHead (s : State) (l : Lane) (h : HeadId) (f : Head → Head) : State :=
  s.modLane l fun x => { x with heads := x.heads.set h (f (x.heads.get h)) }

/-- One pocket record of a lane. -/
def State.pocket (s : State) (l : Lane) (k : Fin 10) : Pocket := (s.lane l).pockets.get k

/-- The part with one pocket record changed. -/
def State.modPocket (s : State) (l : Lane) (k : Fin 10) (f : Pocket → Pocket) : State :=
  s.modLane l fun x => { x with pockets := x.pockets.set k.val (f (x.pockets.get k)) k.isLt }

/-- The Die Table record of a head (R126). -/
def State.dieHead (s : State) (l : Lane) (h : HeadId) : DieHead :=
  (s.store.tables.dieHeads.get l).get h

/-! ### Piece records -/

/-- The record of a tag in a lane's list. -/
def State.piece? (s : State) (l : Lane) (tag : Tag) : Option Piece :=
  (s.lane l).list.find? fun p => p.tag == tag

/-- The newest record of a lane's list. -/
def State.newest? (s : State) (l : Lane) : Option Piece := (s.lane l).list.getLast?

/-- A list with the record of one tag changed. -/
def modTagged (tag : Tag) (f : Piece → Piece) (ps : List Piece) : List Piece :=
  ps.map fun p => if p.tag = tag then f p else p

/-- A write handed to the tracker: it changes the record whose lane and tag it names, and nothing
when that record is no longer in the list (R42). -/
def State.modPiece (s : State) (l : Lane) (tag : Tag) (f : Piece → Piece) : State :=
  s.modLane l fun x => { x with list := modTagged tag f x.list }

/-- The trailing position of a record with a length: lead + length (R67, R69). -/
def trailing (p : Piece) (length : Nat) : Pos := advance p.lead length

/-- The covered start the tracker keeps while the eye is COVERED or PASSING (R49). -/
def Eye.start? : Eye → Option Pos
  | .covered st => some st
  | .passing st => some st
  | _ => none

/-- The record's extent: its length, or covered start + max_covered + 1 − lead without one (R42).
A record without a length is under a COVERED eye, so the covered start is there. -/
def extent (g : Geometry) (eye : Eye) (p : Piece) : Nat :=
  match p.length with
  | some n => n
  | none => (advance (eye.start?.getD p.lead) (g.maxCovered + 1) - p.lead).toNat

end Sys2Proof.Machine
end

