-- ==== Sys2Proof/Machine/Flags.lean ====
section
/-! DEFINITION. The indication latches with ALERT, the notice mask, the sticky flags of the Table
Store, and the free choices of an order. -/

namespace Sys2Proof.Machine

/-! ### Latches, flags and free choices -/

/-- Bit of a latch (R29, R174). -/
def Latch.bit : Latch → Nat
  | .laneChange => 0
  | .jam => 1
  | .monitorReject => 2
  | .monitorLate => 3
  | .monitorShingle => 4
  | .monitorReference => 5
  | .pocketFull => 6
  | .inkLow => 7
  | .inkOut => 8
  | .noticeLost => 9
  | .tableError => 10

/-- Bit of a notice class (R25, R174). -/
def NoticeClass.bit : NoticeClass → Nat
  | .lane => 0
  | .jam => 1
  | .monitor => 2
  | .pocket => 3
  | .tray => 4
  | .ink => 5
  | .head => 6
  | .piece => 7

/-- Bit of a sticky flag (R163, R174). -/
def StickyFlag.bit : StickyFlag → Nat
  | .sequence => 0
  | .range => 1
  | .duplicate => 2
  | .full => 3
  | .lock => 4
  | .interlock => 5
  | .aborted => 6

/-- A latch is set. -/
def State.latched (s : State) (x : Latch) : Bool := s.reports.latches.getLsbD x.bit

/-- The ALERT output: active while any latch is set (R31). -/
def State.alert (s : State) : Bool := s.reports.latches != 0

/-- An indication latch is set (R29). -/
def State.setLatch (s : State) (x : Latch) : State :=
  { s with reports := { s.reports with latches := s.reports.latches ||| BitVec.ofNat 11 (2 ^ x.bit) } }

/-- A notice class is on in the mask (R25). -/
def State.classOn (s : State) (c : NoticeClass) : Bool := s.reports.mask.getLsbD c.bit

/-- Piece reporting is on: the PIECE setting of the mask (R25). -/
def State.pieceReporting (s : State) : Bool := s.classOn .piece

/-- A sticky flag is set, and the TABLE_ERROR latch with it (R163). -/
def State.setFlag (s : State) (x : StickyFlag) : State :=
  { s with store := { s.store with flags := s.store.flags ||| BitVec.ofNat 7 (2 ^ x.bit) } }.setLatch
    .tableError

/-- The next free choice of an order (log entry 3). -/
def State.choice (s : State) : Bool := Config.freeOrder s.freeCount

/-- The part after a free choice has been drawn. -/
def State.drawn (s : State) : State := { s with freeCount := s.freeCount + 1 }

/-- Two effects of one step in an order the spec leaves open (log entry 3). -/
def State.inEitherOrder (s : State) (f g : State → State) : State :=
  if s.choice then g (f s.drawn) else f (g s.drawn)

end Sys2Proof.Machine
end

