-- ==== Sys2Proof/Machine/Layout.lean ====
section
/-! DEFINITION. The byte layouts of chapter 12: enumerations, ACT frames, notices, records and table
entries as the part sends them. -/

namespace Sys2Proof.Machine

/-- A one-byte field. -/
def byte (n : Nat) : Byte := BitVec.ofNat 8 n

/-- A belt position in three bytes (R174). -/
def posBytes (p : Pos) : List Byte := beBytes 3 p.toNat

/-- A tag in two bytes (R174). -/
def tagBytes (t : Tag) : List Byte := beBytes 2 t.toNat

/-- A station address in two bytes. -/
def stationBytes (x : Station) : List Byte := [x.line, x.position]

/-- An absent one-byte field reads 0xFF (R174). -/
def absentByte : Byte := 0xFF#8

/-- A one-byte field that may be absent (R174). -/
def optByte (x : Option Nat) : Byte := (x.map byte).getD absentByte

/-- A length, 0 when absent (R174). -/
def lengthBytes (x : Option Nat) : List Byte := beBytes 2 (x.getD 0)

/-- Bits of a byte, bit 0 first (R174). -/
def bitsByte : List Bool → Nat
  | [] => 0
  | b :: bs => (if b then 1 else 0) + 2 * bitsByte bs

/-- A switch in one byte: off 0, on 1. PRESUMED (log entry 6). -/
def switchNat (b : Bool) : Nat := if b then 1 else 0

/-! ### Enumerations (R174) -/

/-- Lanes. -/
def laneNat : Lane → Nat
  | .a => 0
  | .b => 1

/-- Heads. -/
def headNat : HeadId → Nat
  | .l => 0
  | .t => 1

/-- Corners. -/
def Corner.toNat : Corner → Nat
  | .c1 => 0
  | .c2 => 1
  | .c3 => 2
  | .c4 => 3

/-- Compare modes. -/
def CompareMode.toNat : CompareMode → Nat
  | .nothing => 0
  | .line => 1
  | .position => 2
  | .both => 3

/-- Lane states (R45). -/
def LaneState.toNat : LaneState → Nat
  | .stopped => 0
  | .running => 1
  | .draining => 2
  | .jammed => 3

/-- Eye states (3.6). -/
def Eye.toNat : Eye → Nat
  | .idle => 0
  | .armed => 1
  | .covered _ => 2
  | .passing _ => 3
  | .gapHold _ _ => 4

/-- Jam causes (R57). -/
def JamCause.toNat : JamCause → Nat
  | .eyeBlocked => 0
  | .reverse => 1
  | .noPocket => 2
  | .actOverrun => 3
  | .actuatorFault => 4

/-- Failure reasons (12.2). -/
def FailReason.toNat : FailReason → Nat
  | .late => 0
  | .withdrawn => 1
  | .jam => 2

/-- Scan states, FAILED as one state (R174). -/
def ScanState.toNat : ScanState → Nat
  | .collecting => 0
  | .slotWait => 1
  | .queued => 2
  | .scoring => 3
  | .scored => 4
  | .failed _ => 5

/-- The reason byte of a scan state. -/
def ScanState.reason? : ScanState → Option Nat
  | .failed r => some r.toNat
  | _ => none

/-- Gate settings. -/
def GateSetting.toNat : GateSetting → Nat
  | .pass => 0
  | .flip => 1

/-- Streams. -/
def Stream.toNat : Stream → Nat
  | .l => 0
  | .t => 1
  | .x => 2

/-- Route classes. -/
def RouteClass.toNat : RouteClass → Nat
  | .cancelled => 0
  | .hand => 1
  | .meter => 2
  | .permit => 3
  | .reject => 4

/-- Suppress reasons (12.2). -/
def SuppressReason.toNat : SuppressReason → Nat
  | .ink => 0
  | .die => 1
  | .fault => 2

/-- Cancel states (12.2). -/
def CancelState.toNat : CancelState → Nat
  | .nothing => 0
  | .booked => 1
  | .struck => 2
  | .missed => 3
  | .suppressed _ => 4
  | .notRequired => 5

/-- The suppress reason byte of a cancel state. -/
def CancelState.reason? : CancelState → Option Nat
  | .suppressed r => some r.toNat
  | _ => none

/-- Place of a disposition among the fifteen (R41). -/
def Disposition.index : Disposition → Fin 15
  | .facedCancelled => 0
  | .facedPrecancel => 1
  | .facedHand => 2
  | .facedMeter => 3
  | .facedPermit => 4
  | .rejectDouble => 5
  | .rejectLate => 6
  | .rejectScan => 7
  | .rejectNomark => 8
  | .rejectAmbiguous => 9
  | .rejectGate => 10
  | .rejectPocket => 11
  | .glitch => 12
  | .jamLost => 13
  | .resetLost => 14

/-- Finding results in the order in which the finding record lists them (R96). R174 names no list for
them, and the cases of R90 give HIT before AMBIGUOUS: DEDUCED (log entry 21). -/
def FindingResult.toNat : FindingResult → Nat
  | .noData => 0
  | .noMark => 1
  | .ambiguous => 2
  | .hit _ => 3

/-- The hit of a finding, if it is one. -/
def FindingResult.hit? : FindingResult → Option Hit
  | .hit h => some h
  | _ => none

/-- Profile kinds (R83). -/
def MarkKind.toNat : MarkKind → Nat
  | .stamp => 0
  | .meter => 1
  | .permit => 2

/-- Channels (R83). -/
def Channel.toNat : Channel → Nat
  | .ph => 0
  | .fl => 1

/-- Pocket states (R130). -/
def PocketState.toNat : PocketState → Nat
  | .opened => 0
  | .full => 1
  | .sweepWait => 2
  | .sweep => 3

/-- Feed rates. -/
def FeedRate.toNat : FeedRate → Nat
  | .full => 0
  | .slow => 1
  | .hold => 2

/-- Tables (R161). -/
def Table.toNat : Table → Nat
  | .ink => 0
  | .signature => 1
  | .geometry => 2
  | .stacker => 3
  | .monitor => 4
  | .die => 5

/-- Monitors (R153). -/
def MonitorId.toNat : MonitorId → Nat
  | .reject => 0
  | .late => 1
  | .shingle => 2
  | .reference => 3

/-- Response codes (2.2). -/
def ResponseCode.toNat : ResponseCode → Nat
  | .done => 0
  | .badCommand => 1
  | .badArgument => 2
  | .notReady => 3
  | .wrongState => 4
  | .locked => 5
  | .sequence => 6
  | .errorsPending => 7
  | .tableBusy => 8
  | .nestedBusy => 9
  | .interlock => 10
  | .range => 11
  | .duplicate => 12
  | .full => 13

/-! ### Payloads of the frames the part originates -/

/-- Kind codes (12.1). -/
def kindSample : Byte := 0x11#8
/-- COMMAND. -/
def kindCommand : Byte := 0x21#8
/-- RESPONSE. -/
def kindResponse : Byte := 0x22#8
/-- NOTICE. -/
def kindNotice : Byte := 0x23#8
/-- ACT. -/
def kindAct : Byte := 0x31#8
/-- ACT_STATUS. -/
def kindActStatus : Byte := 0x32#8

/-- An ACT payload (12.1). -/
def actPayload (lane : Lane) : ActMsg → List Byte
  | .gate t g e st => [byte 1, byte (laneNat lane)] ++ tagBytes t ++ [byte g.toNat] ++ posBytes e ++ posBytes st
  | .divert t sm e r => [byte 2, byte (laneNat lane)] ++ tagBytes t ++ [byte sm.toNat] ++ posBytes e ++ posBytes r
  | .strike h t e sp d =>
    [byte 3, byte (laneNat lane), byte (headNat h)] ++ tagBytes t ++ posBytes e ++ posBytes sp ++ d.officeCode
      ++ d.officeName ++ [byte d.lineNumber] ++ beBytes 2 d.date.year
      ++ [byte d.date.month, byte d.date.day, byte d.date.hour] ++ d.text
  | .pocket t k e r => [byte 4, byte (laneNat lane)] ++ tagBytes t ++ [byte k.val] ++ posBytes e ++ posBytes r
  | .feed r => [byte 5, byte (laneNat lane), byte r.toNat]
  | .safe => [byte 6, byte (laneNat lane)]

/-- A tray record (12.3): the tags read 0 when the count is 0. -/
def trayBytes (t : Tray) : List Byte :=
  [byte (laneNat t.lane), byte t.pocket.val] ++ beBytes 2 t.count ++ beBytes 4 t.valueSum
    ++ tagBytes (t.firstTag.getD 0) ++ tagBytes (t.lastTag.getD 0)

/-- A record of a PIECE notice (12.3). -/
def pieceReportBytes (r : PieceReport) : List Byte :=
  tagBytes r.tag
    ++ [byte (laneNat r.lane), optByte (r.disposition.map fun d => d.index.val), optByte (r.corner.map Corner.toNat),
        optByte (r.category.map Fin.val), optByte (r.pocket.map Fin.val)]
    ++ lengthBytes r.length

/-- Type and record of a notice (12.3). -/
def noticeType : NoticeMsg → Nat
  | .lane .. => 1
  | .jam .. => 2
  | .monitor .. => 3
  | .pocketFull .. => 4
  | .tray _ => 5
  | .inkLow .. => 6
  | .inkOut .. => 7
  | .head .. => 8
  | .piece _ => 9
  | .refused .. => 10

/-- The record of a notice (12.3). -/
def noticeRecord : NoticeMsg → List Byte
  | .lane l f t n => [byte (laneNat l), byte f.toNat, byte t.toNat, byte n]
  | .jam l c f p n => [byte (laneNat l), byte c.toNat, byte f.toNat] ++ posBytes p ++ [byte n]
  | .monitor l m d p n lim r =>
    [byte (laneNat l), byte m.toNat, byte (switchNat d)] ++ posBytes p ++ beBytes 2 n ++ [byte lim, byte r]
  | .pocketFull l k n i f => [byte (laneNat l), byte k.val] ++ beBytes 2 n ++ [byte i] ++ beBytes 2 f
  | .tray t => trayBytes t
  | .inkLow l h u w => [byte (laneNat l), byte (headNat h)] ++ beBytes 3 u ++ beBytes 3 w
  | .inkOut l h u c => [byte (laneNat l), byte (headNat h)] ++ beBytes 3 u ++ [byte c]
  | .head l h f n => [byte (laneNat l), byte (headNat h), byte (switchNat f), byte n]
  | .piece rs => byte rs.length :: (rs.map pieceReportBytes).flatten
  | .refused c n => [byte 0, c, n]

/-- Kind of a frame the part originates. -/
def Body.kind : Body → Byte
  | .act .. => kindAct
  | .response .. => kindResponse
  | .notice .. => kindNotice

/-- Payload of a frame the part originates (12.1); result data stands only with DONE (R21). -/
def Body.payload : Body → List Byte
  | .act l m => actPayload l m
  | .response c n rc d => [c, n, byte rc.toNat] ++ (if rc = .done then d else [])
  | .notice sr m => byte (noticeType m) :: beBytes 2 sr.toNat ++ noticeRecord m

/-- The bytes of a frame up to its check (R1). -/
def frameHead (dest src : Station) (kind : Byte) (payload : List Byte) : List Byte :=
  stationBytes dest ++ stationBytes src ++ [kind, byte payload.length] ++ payload

/-- A whole frame, check included (R1, R2). -/
def frameBytes (dest src : Station) (kind : Byte) (payload : List Byte) : List Byte :=
  frameHead dest src kind payload ++ checkBytes (frameHead dest src kind payload)

/-- The bytes of a frame the part originates (R10). -/
def OutFrame.bytes (f : OutFrame) : List Byte := frameBytes f.dest f.src f.body.kind f.body.payload

/-- The bytes the transmitter sends (R13). -/
def Outgoing.bytes : Outgoing → List Byte
  | .own f => f.bytes
  | .passed u => u

/-! ### Records that a command reads -/

/-- The finding of a track record (12.2), thirteen bytes. A one-byte field that is absent reads 0xFF
(R174); the wider ones are then unused bytes and read 0: DEDUCED (log entry 5). -/
def findingBytes : Option Finding → List Byte
  | none =>
    [absentByte, absentByte, absentByte, absentByte] ++ beBytes 2 0 ++ [absentByte] ++ beBytes 2 0 ++ [absentByte]
      ++ beBytes 2 0 ++ [absentByte]
  | some f =>
    let h := f.result.hit?
    [byte f.result.toNat, optByte (h.map fun x => x.corner.toNat), optByte (h.map fun x => x.profile.val),
      optByte (h.map fun x => x.kind.toNat)]
      ++ beBytes 2 ((h.map Hit.score).getD 0) ++ [optByte (h.map Hit.run)] ++ beBytes 2 ((h.map Hit.stampStart).getD 0)
      ++ [optByte (h.bind fun x => x.category.map Fin.val)] ++ beBytes 2 f.value
      ++ [byte (bitsByte [f.precancel, f.multi, f.staleRef])]

/-- A track record (12.2), 35 bytes. -/
def trackRecord (p : Piece) : List Byte :=
  tagBytes p.tag ++ posBytes p.lead ++ lengthBytes p.length
    ++ [byte (bitsByte [p.shingled, p.overlength, p.lateFound, p.staleRef, p.multi, p.strikeStart.isSome]),
        byte p.scan.toNat, optByte p.scan.reason?]
    ++ findingBytes p.finding
    ++ [optByte (p.gate.map GateSetting.toNat), optByte (p.stream.map Stream.toNat),
        optByte (p.route.map RouteClass.toNat), byte p.cancel.toNat, optByte p.cancel.reason?]
    ++ posBytes (p.strikeStart.getD 0)
    ++ [optByte (p.pocket.map Fin.val), optByte (p.disposition.map fun d => d.index.val)]
    ++ beBytes 2 p.value

/-! ### Table entries (12.4), their table byte included -/

/-- A profile's entry. -/
def profileEntry (n : Nat) (p : Profile) : List Byte :=
  [byte Table.ink.toNat, byte n, byte (switchNat p.enable), byte p.channel.toNat, byte p.kind.toNat]
    ++ beBytes 2 p.scoreMin ++ beBytes 2 p.scoreMax ++ [byte p.runMin, byte p.runMax]

/-- The channel record's entry, with its unused byte. -/
def channelEntry (c : ChannelRecord) : List Byte :=
  [byte Table.ink.toNat, byte 8] ++ beBytes 2 c.floorPH ++ beBytes 2 c.floorFL ++ beBytes 2 c.runLevelPH
    ++ beBytes 2 c.runLevelFL ++ [byte 0]

/-- A signature's entry, as the PUT that writes it. -/
def signatureEntry (e : SigEntry) : List Byte :=
  [byte Table.signature.toNat, byte 0, byte e.key.profile.val, byte e.key.width.val, byte e.key.band.val,
    byte e.category.val] ++ beBytes 2 e.value ++ [byte (switchNat e.precancel)]

/-- The twenty two-byte fields of a Lane Geometry record in the order of R38. -/
def Geometry.fields (g : Geometry) : List Nat :=
  [g.minLen, g.maxLen, g.minGap, g.maxCovered, g.sampleWait, g.cornerLen, g.refSeedPH, g.refSeedFL, g.refGuard,
    g.dDecide, g.dGate, g.gateSettle, g.dHeadL, g.dHeadT, g.leadIn, g.strikeLen, g.recoverLen, g.dPocket, g.dStack,
    g.reverseLimit]

/-- A Lane Geometry record's entry. -/
def geometryEntry (l : Lane) (g : Geometry) : List Byte :=
  [byte Table.geometry.toNat, byte (laneNat l)] ++ stationBytes g.scanSource ++ (g.fields.map (beBytes 2)).flatten

/-- A route's entry: its list in four places, unused ones 0xFF. -/
def routeEntry (l : Lane) (r : Nat) (ps : List (Fin 10)) : List Byte :=
  [byte Table.stacker.toNat, byte (laneNat l), byte r, byte ps.length]
    ++ (ps.map fun k => byte k.val) ++ List.replicate (4 - ps.length) absentByte

/-- A level pair's entry, items 9 to 18. -/
def levelsEntry (l : Lane) (k : Nat) (v : Levels) : List Byte :=
  [byte Table.stacker.toNat, byte (laneNat l), byte (9 + k)] ++ beBytes 2 v.fullLevel ++ beBytes 2 v.hardLevel ++ [byte 0]

/-- The window's entry. -/
def windowEntry (n : Nat) : List Byte := [byte Table.monitor.toNat, byte 0] ++ beBytes 2 n ++ [byte 0, byte 0]

/-- A monitor's entry. -/
def monitorEntry (m : MonitorId) (e : MonitorEntry) : List Byte :=
  [byte Table.monitor.toNat, byte (m.toNat + 1), byte (switchNat e.enable), byte e.limit, byte e.declareN, byte e.clearM]

/-- The Die common record's entry. -/
def dieCommonEntry (c : DieCommon) : List Byte :=
  [byte Table.die.toNat, byte 0] ++ c.officeCode ++ c.officeName ++ [byte c.lineNumber]

/-- A Die head record's entry, items 1 to 4 for A-L, A-T, B-L, B-T, with its seven unused bytes. -/
def dieHeadEntry (l : Lane) (h : HeadId) (d : DieHead) : List Byte :=
  [byte Table.die.toNat, byte (1 + 2 * laneNat l + headNat h)] ++ d.text ++ [byte d.inkCost] ++ beBytes 3 d.inkLow
    ++ List.replicate 7 (byte 0)

end Sys2Proof.Machine
end

