-- ==== Sys2Proof/Machine/Operands.lean ====
section
/-! DEFINITION. The operands of commands and frames: what each byte names, and the checks of R20. -/

namespace Sys2Proof.Machine

/-! ### Enumerations as they are received (R174, R175) -/

/-- The bands by their number in a SAMPLE frame (R174). -/
def bandOf (b : Byte) : Option Band :=
  match b.toNat with
  | 0 => some .aTop
  | 1 => some .aBottom
  | 2 => some .bTop
  | 3 => some .bBottom
  | _ => none

/-- Lanes by their number. -/
def laneOf (b : Byte) : Option Lane :=
  match b.toNat with
  | 0 => some .a
  | 1 => some .b
  | _ => none

/-- A switch or condition byte: 0 or 1. PRESUMED for on/off switches (log entry 6). -/
def switchOf (b : Byte) : Option Bool :=
  match b.toNat with
  | 0 => some false
  | 1 => some true
  | _ => none

/-- Heads by their number. -/
def headOf (b : Byte) : Option HeadId :=
  match b.toNat with
  | 0 => some .l
  | 1 => some .t
  | _ => none

/-- Corners by their number. -/
def cornerOf (b : Byte) : Option Corner :=
  match b.toNat with
  | 0 => some .c1
  | 1 => some .c2
  | 2 => some .c3
  | 3 => some .c4
  | _ => none

/-- Compare modes by their number. -/
def modeOf (b : Byte) : Option CompareMode :=
  match b.toNat with
  | 0 => some .nothing
  | 1 => some .line
  | 2 => some .position
  | 3 => some .both
  | _ => none

/-- Tables by their number (R161). -/
def tableOf (b : Byte) : Option Table :=
  match b.toNat with
  | 0 => some .ink
  | 1 => some .signature
  | 2 => some .geometry
  | 3 => some .stacker
  | 4 => some .monitor
  | 5 => some .die
  | _ => none

/-- Lane sets of a TABLE_OPEN (12.2). -/
def laneSetOf (b : Byte) : Option LaneSet :=
  match b.toNat with
  | 1 => some .onlyA
  | 2 => some .onlyB
  | 3 => some .both
  | _ => none

/-- Channels by their number (R83). -/
def channelOf (b : Byte) : Option Channel :=
  match b.toNat with
  | 0 => some .ph
  | 1 => some .fl
  | _ => none

/-- Profile kinds by their number (R83). -/
def kindOf (b : Byte) : Option MarkKind :=
  match b.toNat with
  | 0 => some .stamp
  | 1 => some .meter
  | 2 => some .permit
  | _ => none

/-- A number below a bound. -/
def below (bound n : Nat) : Option (Fin bound) := if h : n < bound then some ⟨n, h⟩ else none

/-- A number within a range, both ends included. -/
def within (low high n : Nat) : Option Nat := if low ≤ n ∧ n ≤ high then some n else none

/-! ### The checks of a command (R20) -/

/-- What the length check and the range checks of R20 leave of a command's arguments. -/
inductive Args (α : Type) where
  | wrongLength
  | outOfRange
  | valid (a : α)

/-- The arguments whose length is right: valid, or a field out of range. -/
def inRange {α : Type} : Option α → Args α
  | some a => .valid a
  | none => .outOfRange

/-- A command without arguments. -/
def noArgs : List Byte → Args Unit
  | [] => .valid ()
  | _ => .wrongLength

/-- A command whose one argument is a lane. -/
def laneArg : List Byte → Args Lane
  | [l] => inRange (laneOf l)
  | _ => .wrongLength

/-- A lane and a pocket. -/
def pocketArgs : List Byte → Args (Lane × Fin 10)
  | [l, k] => inRange do return (← laneOf l, ← below 10 k.toNat)
  | _ => .wrongLength

/-- A command whose one argument is a table. -/
def tableArg : List Byte → Args Table
  | [t] => inRange (tableOf t)
  | _ => .wrongLength

end Sys2Proof.Machine
end

