-- ==== Sys2Proof/Machine/Outbound.lean ====
section
/-! DEFINITION. The outbound side: the arbiter, the pass-through FIFO, the ACT queues' places, and
the Report Queue with its notices, responses and open piece batch. -/

namespace Sys2Proof.Machine

/-! ### The outbound arbiter (R12, R13) -/

/-- The lane whose ACT queue is served: the one that waits, or the lane other than the last ACT lane
when both wait (R12.1). -/
def actToServe (k : Link) : Option Lane :=
  match k.act.a, k.act.b with
  | [], [] => none
  | _ :: _, [] => some .a
  | [], _ :: _ => some .b
  | _ :: _, _ :: _ => some (otherLane k.lastAct)

/-- ACT is granted to a lane: its head frame leaves the queue for the transmitter (R12, R13). -/
def State.grantAct (s : State) (l : Lane) : State :=
  match s.link.act.get l with
  | [] => s
  | f :: fs =>
    { s with link := { s.link with act := s.link.act.set l fs, lastAct := l, sending := some (.own f) } }

/-- PASS is granted: the FIFO's head frame leaves for the transmitter (R12, R13). -/
def State.grantPass (s : State) : State :=
  match s.link.fifo with
  | [] => s
  | u :: us => { s with link := { s.link with fifo := us, lastGrant := .pass, sending := some (.passed u) } }

/-- REPORT is granted: the oldest queued frame leaves for the transmitter and its slot is free
(R12, R13, R23). -/
def State.grantReport (s : State) : State :=
  match s.reports.queued with
  | [] => s
  | f :: fs =>
    { s with
      link := { s.link with lastGrant := .report, sending := some (.own f) }
      reports := { s.reports with queued := fs } }

/-- The arbiter, run when the link becomes free or a frame becomes waiting: while a frame is being
sent nothing is granted (R12). -/
def State.arbitrate (s : State) : State :=
  match s.link.sending with
  | some _ => s
  | none =>
    match actToServe s.link with
    | some l => s.grantAct l
    | none =>
      match s.link.fifo, s.reports.queued with
      | [], [] => s
      | _ :: _, [] => s.grantPass
      | [], _ :: _ => s.grantReport
      | _ :: _, _ :: _ =>
        match s.link.lastGrant with
        | .report => s.grantPass
        | .pass => s.grantReport

/-! ### The pass-through FIFO (R9) -/

/-- One more drop in PASS_DROPS (R14). -/
def LinkCounters.dropped (c : LinkCounters) : LinkCounters :=
  { c with passDrops := satInc Config.max16 c.passDrops }

/-- A unit is offered to the pass-through FIFO (R9). -/
def State.offer (s : State) (unit : List Byte) : State :=
  if s.link.fifo.length < Config.fifoDepth then
    { s with link := { s.link with fifo := s.link.fifo ++ [unit] } }.arbitrate
  else { s with link := { s.link with counters := s.link.counters.dropped } }

/-! ### ACT frames (R10, R11) -/

/-- An ACT frame with the header it is given when it is placed (R10). -/
def State.actFrame (s : State) (l : Lane) (m : ActMsg) : OutFrame :=
  { dest := ⟨s.link.station.line, 0xFF⟩, src := s.link.station, body := .act l m }

/-- An ACT frame joins the tail of its lane's queue, which has room (R11). -/
def State.joinAct (s : State) (l : Lane) (m : ActMsg) : State :=
  { s with
    link := { s.link with act := s.link.act.set l (s.link.act.get l ++ [s.actFrame l m]) } }.arbitrate

/-- A lane's ACT queue is emptied, its frames unsent and uncounted (R11, R17). -/
def State.emptyAct (s : State) (l : Lane) : State :=
  { s with link := { s.link with act := s.link.act.set l [] } }

/-! ### The Report Queue (R21, R23, R24) -/

/-- The Report Queue has a free slot (R18). -/
def State.slotFree (s : State) : Bool := s.reports.queued.length + s.reports.reserved < Config.reportSlots

/-- A finished frame becomes queued, and waits for the link (R12, R23). -/
def State.queueReport (s : State) (f : OutFrame) : State :=
  { s with reports := { s.reports with queued := s.reports.queued ++ [f] } }.arbitrate

/-- A notice that found no free slot: NOTICE_LOST rises and its latch is set (R24). -/
def State.loseNotice (s : State) : State :=
  { s with reports := { s.reports with noticeLost := satInc Config.max16 s.reports.noticeLost } }.setLatch .noticeLost

/-- A notice is built: it takes the next serial, and is queued in a free slot or lost (R24). -/
def State.postNotice (s : State) (dest : Station) (m : NoticeMsg) : State :=
  let f : OutFrame := { dest := dest, src := s.link.station, body := .notice s.reports.nextSerial m }
  let s' := { s with reports := { s.reports with nextSerial := s.reports.nextSerial + 1 } }
  if s.slotFree then s'.queueReport f else s'.loseNotice

/-- A notice of a class, built when its class is on in the mask, to the controller address
(R10, R24). -/
def State.notice (s : State) (c : NoticeClass) (m : NoticeMsg) : State :=
  if s.classOn c then s.postNotice s.link.controller m else s

/-- The response of a command, in the slot reserved for it (R10, R21). -/
def State.respond (s : State) (c : Cmd) (rc : ResponseCode) (data : List Byte) : State :=
  { s with reports := { s.reports with reserved := s.reports.reserved - 1 } }.queueReport
    { dest := c.src, src := s.link.station, body := .response c.code c.number rc data }

/-- A command completes: its response is built and the interpreter is free (R19, R21). -/
def State.complete (s : State) (c : Cmd) (rc : ResponseCode) (data : List Byte) : State :=
  { s with interp := { s.interp with executing := none } }.respond c rc data

/-- A command completes with DONE and no result data. -/
def State.done (s : State) (c : Cmd) : State := s.complete c .done []

/-! ### The open piece batch (R26 to R28) -/

/-- The open batch is closed: a PIECE notice with its records, in order, and the batch is empty
(R26). An empty batch gives no notice. -/
def State.closeBatch (s : State) : State :=
  match s.reports.batch with
  | [] => s
  | r :: rs =>
    { s with reports := { s.reports with batch := [] } }.notice .piece (.piece (r :: rs))

/-- A piece report record joins the open batch while piece reporting is on; at batch_level records
the batch is closed (R26). -/
def State.appendReport (s : State) (r : PieceReport) : State :=
  if s.pieceReporting then
    let s' := { s with reports := { s.reports with batch := s.reports.batch ++ [r] } }
    if s.reports.batchLevel ≤ s'.reports.batch.length then s'.closeBatch else s'
  else s

end Sys2Proof.Machine
end

