-- ==== Sys2Proof/Machine/Slots.lean ====
section
/-! DEFINITION. Scan slots: the ring entries, the scan job a grant copies, the slot wait list, and
the withdrawals that release slots. -/

namespace Sys2Proof.Machine

/-! ### Band rings (R63, R64) -/

/-- The entry of a position in a ring (R63). -/
def ringIndex (p : Pos) : Nat := pitchCell p % Config.ringSize

/-- What an entry of a ring holds: nothing when it is empty (R63). -/
def Ring.read (r : Ring) (i : Nat) : Option RingEntry :=
  match r with
  | [] => none
  | (j, e) :: rest => if i = j then some e else if i < j then none else Ring.read rest i

/-- A ring with one entry written, whatever it held (R63). -/
def Ring.write (r : Ring) (i : Nat) (e : RingEntry) : Ring :=
  match r with
  | [] => [(i, e)]
  | (j, d) :: rest =>
    if i = j then (i, e) :: rest
    else if i < j then (i, e) :: (j, d) :: rest
    else (j, d) :: Ring.write rest i e

/-- A sample is filed into the entry of its position (R63). -/
def Ring.file (r : Ring) (p : Pos) (x : Sample) : Ring := Ring.write r (ringIndex p) ⟨p, x⟩

/-- The sample a ring gives for a wanted position: the entry's values when its stored position is of
the same pitch cell, missing otherwise (R64). -/
def Ring.wanted (r : Ring) (w : Pos) : Option Sample :=
  match Ring.read r (ringIndex w) with
  | some e => if pitchCell e.pos = pitchCell w then some e.sample else none
  | none => none

/-! ### Scan jobs (R71) -/

/-- `m` wanted positions from a first one, two steps apart, read from a ring (R71). -/
def copyWindow (r : Ring) (first : Pos) (m : Nat) : List (Option Sample) :=
  (List.range m).map fun i => Ring.wanted r (advance first (2 * i))

/-- The scan job of a record with a length, as the lane stands at the grant (R71). -/
def makeJob (l : Lane) (g : Geometry) (x : LaneS) (p : Piece) (length : Nat) : Job :=
  let m := g.cornerLen / 2
  let tail := trailing p length - BitVec.ofNat 24 g.cornerLen
  { lane := l, tag := p.tag, lead := p.lead, length := length, m := m
    windows :=
      { c1 := copyWindow x.rings.aTop tail m, c2 := copyWindow x.rings.aBottom p.lead m
        c3 := copyWindow x.rings.bTop p.lead m, c4 := copyWindow x.rings.bBottom tail m }
    refs := x.refs }

/-- The number of scan slots held: the jobs of the two queues and of the engine (R73). -/
def State.slotsHeld (s : State) : Nat :=
  s.scorer.queues.a.length + s.scorer.queues.b.length + (if s.scorer.engine.isSome then 1 else 0)

/-- A slot is granted to a record: its job is copied, it becomes QUEUED, and the job joins the tail
of its lane's scoring queue (R71, R79). A record without a length is never granted one. -/
def State.grantSlot (s : State) (l : Lane) (tag : Tag) : State :=
  match s.piece? l tag with
  | none => s
  | some p =>
    match p.length with
    | none => s
    | some n =>
      let j := makeJob l (s.geometry l) (s.lane l) p n
      { s with
        scorer := { s.scorer with queues := s.scorer.queues.set l (s.scorer.queues.get l ++ [j]) } }.modPiece l tag
          fun p => { p with scan := .queued }

/-- A record asks for a slot: a free one is granted at once, otherwise the record waits at the tail
of the slot wait list (R70). -/
def State.askSlot (s : State) (l : Lane) (tag : Tag) : State :=
  if s.slotsHeld < Config.scanSlots then s.grantSlot l tag
  else
    { s with scan := { s.scan with waitList := s.scan.waitList ++ [(l, tag)] } }.modPiece l tag
      fun p => { p with scan := .slotWait }

/-- A released slot is granted to the head of the slot wait list, or becomes free (R72). -/
def State.passSlotOn (s : State) : State :=
  match s.scan.waitList with
  | [] => s
  | (l, tag) :: rest => { s with scan := { s.scan with waitList := rest } }.grantSlot l tag

/-- Several slots are released one after another (R72). -/
def State.passSlotsOn (s : State) : Nat → State
  | 0 => s
  | n + 1 => (s.passSlotOn).passSlotsOn n

/-- A record leaves the slot wait list from wherever it stands (R70). -/
def State.leaveWaitList (s : State) (l : Lane) (tag : Tag) : State :=
  { s with scan := { s.scan with waitList := s.scan.waitList.filter fun e => !(e.1 == l && e.2 == tag) } }

/-- A record's job leaves its lane's scoring queue from wherever it stands, and its slot is released
(R72, R79). -/
def State.dropJob (s : State) (l : Lane) (tag : Tag) : State :=
  let q := s.scorer.queues.get l
  let rest := q.filter fun j => !(j.tag == tag)
  let s' := { s with scorer := { s.scorer with queues := s.scorer.queues.set l rest } }
  s'.passSlotsOn (q.length - rest.length)

/-- A record's scan becomes FAILED with a reason. -/
def State.failScan (s : State) (l : Lane) (tag : Tag) (r : FailReason) : State :=
  s.modPiece l tag fun p => { p with scan := .failed r }

/-- A record's scan is abandoned as it becomes SHINGLED or OVERLENGTH (R55). -/
def State.abandonScan (s : State) (l : Lane) (tag : Tag) : State :=
  match (s.piece? l tag).map Piece.scan with
  | none => s
  | some .collecting => s.failScan l tag .withdrawn
  | some .slotWait => (s.failScan l tag .withdrawn).leaveWaitList l tag
  | some .queued => (s.failScan l tag .withdrawn).dropJob l tag
  | some .scoring => s.failScan l tag .withdrawn
  | some .scored => (s.failScan l tag .withdrawn).modPiece l tag fun p => { p with finding := none }
  | some (.failed _) => s

/-- A record's scan is settled at its decision point (R74). -/
def State.settleScan (s : State) (l : Lane) (tag : Tag) : State :=
  match (s.piece? l tag).map Piece.scan with
  | some .collecting => s.failScan l tag .late
  | some .slotWait => (s.failScan l tag .late).leaveWaitList l tag
  | some .queued => (s.failScan l tag .late).dropJob l tag
  | _ => s

/-- The scan state a jam leaves a record in (R75). -/
def jamScan (p : Piece) : Piece :=
  match p.scan with
  | .collecting | .slotWait | .queued => { p with scan := .failed .jam }
  | _ => p

/-- A jam withdraws every record of the lane that is COLLECTING, SLOT_WAIT or QUEUED: its entries
leave the wait list, its jobs leave the scoring queue, and their slots are released one after
another to the records that still wait (R75). -/
def State.withdrawLane (s : State) (l : Lane) : State :=
  let n := (s.scorer.queues.get l).length
  let s1 := s.modLane l fun x => { x with list := x.list.map jamScan }
  { s1 with
    scan := { s1.scan with waitList := s1.scan.waitList.filter fun e => !(e.1 == l) }
    scorer := { s1.scorer with queues := s1.scorer.queues.set l [] } }.passSlotsOn n

/-! ### Readiness (R69) -/

/-- One band's high mark lies at or beyond trailing − 2 (R69). -/
def bandComplete (mark : Option Pos) (trail : Pos) : Bool :=
  match mark with
  | none => false
  | some h => reached h (trail - 2)

/-- The samples of a trailing position are complete: all four bands' high marks lie at or beyond
trailing − 2 (R69). -/
def samplesComplete (marks : PerBand (Option Pos)) (trail : Pos) : Bool :=
  bandComplete marks.aTop trail && bandComplete marks.aBottom trail && bandComplete marks.bTop trail
    && bandComplete marks.bBottom trail

/-- A record is COLLECTING, has a length, and its samples are complete (R69). -/
def sampleReady (x : LaneS) (p : Piece) : Bool :=
  match p.scan, p.length with
  | .collecting, some n => samplesComplete x.highMarks (trailing p n)
  | _, _ => false

/-- The records of a lane whose samples are complete ask for slots in list order (R69). -/
def State.askReady (s : State) (l : Lane) : State :=
  (((s.lane l).list.filter (sampleReady (s.lane l))).map Piece.tag).foldl (fun s t => s.askSlot l t) s

end Sys2Proof.Machine
end

