-- ==== Sys2Proof/Machine/Jam.lean ====
section
/-! DEFINITION. Jams, the placing of ACT frames that can raise one, the feed rate, and the lane
notices. -/

namespace Sys2Proof.Machine

/-- A head with its booking list emptied and its reserved ink released (R128). -/
def Head.emptied (h : Head) : Head := { h with booking := [], reserved := 0 }

/-- The lane's booking lists are emptied (R128). -/
def State.emptyBookings (s : State) (l : Lane) : State :=
  s.modLane l fun x => { x with heads := ⟨x.heads.l.emptied, x.heads.t.emptied⟩ }

/-- A lane in JAMMED: its eye IDLE, its forward mark and window dropped, its rate HOLD (R58.1,
R58.3). -/
def LaneS.jam (x : LaneS) : LaneS :=
  { x with state := .jammed, eye := .idle, forwardMark := none, window := none, feedRate := .hold }

/-- A cause jams the lane (R58). `fromFeed` says that the cause was a FEED frame that could not be
placed, after which FEED HOLD is placed whatever the rate was (R160). The batch is closed from
RUNNING and DRAINING alike: R58 names no state, DEDUCED (log entry 7). -/
def State.jam (s : State) (l : Lane) (cause : JamCause) (fromFeed : Bool) : State :=
  let x := s.lane l
  let s1 := ((s.modLane l LaneS.jam).emptyAct l).joinAct l .safe
  let s2 := if x.feedRate != .hold || fromFeed then s1.joinAct l (.feed .hold) else s1
  let s3 := ((s2.emptyBookings l).withdrawLane l).closeBatch
  ((s3.notice .jam (.jam l cause x.state x.belt x.list.length)).setLatch .jam).setLatch .laneChange

/-- A jam cause is reported: it jams a RUNNING or DRAINING lane and has no effect otherwise (R57). -/
def State.jamCause (s : State) (l : Lane) (cause : JamCause) : State :=
  if (s.lane l).active then s.jam l cause false else s

/-- An ACT frame is placed (R11): at the tail of its lane's queue where there is room; otherwise the
frame is lost, and ACT_OVERRUN is reported unless the lane is already JAMMED. -/
def State.placeAct (s : State) (l : Lane) (m : ActMsg) : State :=
  if (s.link.act.get l).length < Config.actDepth then s.joinAct l m
  else
    match (s.lane l).state with
    | .running | .draining => s.jam l .actOverrun (match m with | .feed _ => true | _ => false)
    | .stopped | .jammed => s

/-- The feed rate a lane's state, monitors and list ask for (R159). -/
def LaneS.wantedRate (x : LaneS) : FeedRate :=
  if x.state != .running then .hold
  else if x.monitors.late.declared || x.monitors.shingle.declared then .slow
  else if Config.slowListSize ≤ x.list.length then .slow
  else .full

/-- The feed rate is worked out afresh; a changed rate is taken and places its FEED frame
(R159, R160). -/
def State.updateRate (s : State) (l : Lane) : State :=
  let r := (s.lane l).wantedRate
  if r = (s.lane l).feedRate then s
  else (s.modLane l fun x => { x with feedRate := r }).placeAct l (.feed r)

/-- A lane takes a state other than JAMMED: LANE_CHANGE is set and the LANE notice built (R45). -/
def State.laneTo (s : State) (l : Lane) (st : LaneState) : State :=
  let left := (s.lane l).state
  let s1 := (s.modLane l fun x => { x with state := st }).setLatch .laneChange
  s1.notice .lane (.lane l left st (s1.lane l).list.length)

/-- A lane that has become STOPPED: the eye IDLE, no window and no forward mark (R48, R44, R154). -/
def LaneS.atRest (x : LaneS) : LaneS := { x with eye := .idle, window := none, forwardMark := none }

/-- A DRAINING lane whose list is empty becomes STOPPED (R48). -/
def State.drain (s : State) (l : Lane) : State :=
  if (s.lane l).state == .draining && (s.lane l).list.isEmpty then
    (s.modLane l LaneS.atRest).laneTo l .stopped
  else s

end Sys2Proof.Machine
end

