-- ==== Sys2Proof/Machine/Retire.lean ====
section
/-! DEFINITION. Retirement and its hand-offs (R60), counts of dispositions and categories, and what
a retirement does to its pocket. -/

namespace Sys2Proof.Machine

/-- The four ways of retirement (R60). -/
inductive Way where
  | ordinary
  | glitch
  | jamClear
  | lineReset
  deriving DecidableEq, Repr

/-- The record as it is retired: the tracker writes the last three dispositions (R60). -/
def retired (way : Way) (p : Piece) : Piece :=
  match way with
  | .ordinary => p
  | .glitch => { p with disposition := some .glitch }
  | .jamClear => { p with disposition := some .jamLost }
  | .lineReset => { p with disposition := some .resetLost }

/-- The disposition counter of a disposition rises (R145, R146). -/
def LaneCounters.disposed (d : Disposition) (c : LaneCounters) : LaneCounters :=
  { c with
    dispositions :=
      c.dispositions.set d.index.val (satInc Config.max32 (c.dispositions.get d.index)) d.index.isLt }

/-- Dispositions that count in a category record (R148). -/
def Disposition.revenue : Disposition → Bool
  | .facedCancelled | .facedPrecancel | .facedHand => true
  | _ => false

/-- Dispositions that count in the REJECT count of a window (R155). -/
def Disposition.rejected : Disposition → Bool
  | .rejectDouble | .rejectLate | .rejectScan | .rejectNomark | .rejectAmbiguous | .rejectGate | .rejectPocket => true
  | _ => false

/-- The category of a record's finding (R96). -/
def Piece.category? (p : Piece) : Option (Fin 64) := p.finding.bind fun f => f.result.hit?.bind Hit.category

/-- A category record gains a piece and its value (R148). -/
def CategoryRecord.gain (c : CategoryRecord) (value : Nat) : CategoryRecord :=
  { pieces := satInc Config.max32 c.pieces, valueTotal := min (c.valueTotal + value) Config.max32 }

/-- The Count Bank's part of a retirement (R146, R148). -/
def State.countRetired (s : State) (l : Lane) (way : Way) (p : Piece) : State :=
  match p.disposition with
  | none => s
  | some d =>
    let s1 := s.count l (LaneCounters.disposed d)
    match way == .ordinary && d.revenue, p.category? with
    | true, some c => { s1 with categories := s1.categories.set c.val ((s1.categories.get c).gain p.value) c.isLt }
    | _, _ => s1

/-- A pocket in SWEEP_WAIT whose inbound is 0 becomes SWEEP (R138). -/
def Pocket.settleSweep (k : Pocket) : Pocket :=
  if k.state = .sweepWait ∧ k.inbound = 0 then { k with state := .sweep } else k

/-- A pocket at the retirement of a record assigned to it (R138). -/
def Pocket.retire (way : Way) (p : Piece) (k : Pocket) : Pocket :=
  Pocket.settleSweep
    (match way with
    | .ordinary =>
      { k with
        inbound := k.inbound - 1, count := k.count + 1, valueSum := k.valueSum + p.value
        lastTag := some p.tag, firstTag := some (k.firstTag.getD p.tag) }
    | _ => { k with inbound := k.inbound - 1 })

/-- The Pocket Manager's part of a retirement: nothing without a pocket (R138). -/
def State.pocketRetired (s : State) (l : Lane) (way : Way) (p : Piece) : State :=
  match p.pocket with
  | none => s
  | some k => s.modPocket l k (Pocket.retire way p)

/-- The Transport Monitor's part: an ordinary reject raises the window's REJECT count (R155). -/
def State.windowRetired (s : State) (l : Lane) (way : Way) (p : Piece) : State :=
  match way, p.disposition with
  | .ordinary, some d =>
    if d.rejected then s.countWindow l fun w => { w with reject := satInc Config.max16 w.reject } else s
  | _, _ => s

/-- The corner of a record's finding, if it is a HIT (R26). -/
def Piece.corner? (p : Piece) : Option Corner := p.finding.bind fun f => f.result.hit?.map Hit.corner

/-- A record's piece report record (R26). -/
def Piece.report (l : Lane) (p : Piece) : PieceReport :=
  { tag := p.tag, lane := l, disposition := p.disposition, corner := p.corner?
    category := if (p.disposition.map Disposition.revenue).getD false then p.category? else none
    pocket := p.pocket, length := p.length }

/-- The Report Queue's part: a line reset's retirements are not appended (R26, R60). -/
def State.reportRetired (s : State) (l : Lane) (way : Way) (p : Piece) : State :=
  match way with
  | .lineReset => s
  | _ => s.appendReport (p.report l)

/-- A head without the strikes of a record, their cost released from the reserved ink (R123,
R125). -/
def Head.without (tag : Tag) (h : Head) : Head :=
  { h with
    booking := h.booking.filter fun k => !(k.tag == tag)
    reserved := h.reserved - ((h.booking.filter fun k => k.tag == tag).map Strike.cost).sum }

/-- A record leaves its lane's list and its strikes their booking lists (R60, R123). -/
def LaneS.drop (tag : Tag) (x : LaneS) : LaneS :=
  { x with
    list := x.list.filter fun p => !(p.tag == tag)
    heads := ⟨x.heads.l.without tag, x.heads.t.without tag⟩ }

/-- A record is retired: it leaves the list, and the Count Bank, the Pocket Manager, the Transport
Monitor and the Report Queue take their parts (R60). -/
def State.retire (s : State) (l : Lane) (way : Way) (p : Piece) : State :=
  let q := retired way p
  ((((s.modLane l (LaneS.drop p.tag)).countRetired l way q).pocketRetired l way q).windowRetired l way q).reportRetired
    l way q

/-- A retirement with what follows it in a running or draining lane: the list's new size goes to the
feed rate, and a drained lane stops (R40, R48, R60). -/
def State.retireOne (s : State) (l : Lane) (way : Way) (p : Piece) : State :=
  ((s.retire l way p).updateRate l).drain l

/-- Every record of a lane's list is retired, oldest first (R59, R61). -/
def State.retireAll (s : State) (l : Lane) (way : Way) : State :=
  (s.lane l).list.foldl (fun s p => s.retire l way p) s

end Sys2Proof.Machine
end

