-- ==== Sys2Proof/Machine/Track.lean ====
section
/-! DEFINITION. The Lane Tracker: belt steps, the eye, and the track events it owns (chapter 3). A
step whose event is not there (an edge that is no change of level, a track event that is not due)
changes nothing: DESIGN CHOICE, safe (log entry 1). -/

namespace Sys2Proof.Machine

/-- What a step answers. -/
abbrev Result := Host.Outcome State Fault Refusal

/-! ### The belt -/

/-- The forward mark after a forward step (R44): a position ahead of the mark moves it. -/
def markForward (belt : Pos) (mark : Option Pos) : Option Pos :=
  mark.map fun m => if beyond belt m then belt else m

/-- The belt of a lane moves by one step (R36); in a RUNNING or DRAINING lane a forward step moves
the forward mark (R44). -/
def LaneS.step (forward : Bool) (x : LaneS) : LaneS :=
  if forward then { x with belt := x.belt + 1, forwardMark := markForward (x.belt + 1) x.forwardMark }
  else { x with belt := x.belt - 1 }

/-- A lane has run back from its forward mark by more than reverse_limit (R44). -/
def LaneS.reversed (g : Geometry) (x : LaneS) : Bool :=
  match x.forwardMark with
  | none => false
  | some m => g.reverseLimit < (m - x.belt).toNat

/-- BELT_STEP (R36, R44). -/
def execBeltStep (l : Lane) (forward : Bool) (s : State) : Result :=
  let s1 := s.modLane l (LaneS.step forward)
  .next (if !forward && (s1.lane l).reversed (s.geometry l) then s1.jamCause l .reverse else s1)

/-! ### The eye -/

/-- A record at its capture (R41). -/
def captured (tag : Tag) (lead : Pos) : Piece :=
  { tag := tag, lead := lead, length := none, shingled := false, overlength := false, lateFound := false
    staleRef := false, multi := false, scan := .collecting, finding := none, gate := none, stream := none
    route := none, cancel := .nothing, strikeStart := none, pocket := none, disposition := none, value := 0
    overlengthTaken := false, sampleWaitDue := false, decisionTaken := false, pocketTaken := false }

/-- A leading edge may be captured: the lane is RUNNING, the list has room, and the edge lies ahead
of the newest record's lead (R51). -/
def LaneS.canCapture (x : LaneS) : Bool :=
  x.state == .running && decide (x.list.length < Config.listDepth)
    && (match x.list.getLast? with
        | none => true
        | some p => beyond x.belt p.lead)

/-- One more in UNTRACKED, and an uncaptured piece under the eye (R51, R52). -/
def LaneS.pass (counted : Bool) (x : LaneS) : LaneS :=
  { x with
    eye := .passing x.belt
    counters :=
      if counted then { x.counters with untracked := satInc Config.max32 x.counters.untracked } else x.counters }

/-- A capture (R41, R51). -/
def LaneS.capture (x : LaneS) : LaneS :=
  { x with
    eye := .covered x.belt
    list := x.list ++ [captured x.nextTag x.belt]
    nextTag := x.nextTag + 1
    counters := { x.counters with captured := satInc Config.max32 x.counters.captured } }

/-- A leading edge that finds the eye ARMED (R51). -/
def State.edgeArmed (s : State) (l : Lane) : State :=
  if (s.lane l).canCapture then (s.modLane l LaneS.capture).updateRate l else s.modLane l (LaneS.pass true)

/-- A record as a reopen leaves it, before its scan is abandoned (R52). -/
def Piece.reopened (p : Piece) : Piece := { p with length := none, shingled := true, sampleWaitDue := false }

/-- The first SHINGLED mark of a record is counted (R52, R155). -/
def State.countShingle (s : State) (l : Lane) (p : Piece) : State :=
  if p.shingled then s
  else
    (s.count l fun c => { c with shingled := satInc Config.max32 c.shingled }).countWindow l fun w =>
      { w with shingle := satInc Config.max16 w.shingle }

/-- The newest record is reopened by a leading edge in GAP_HOLD (R52). -/
def State.reopen (s : State) (l : Lane) (p : Piece) : State :=
  let s1 := s.modLane l fun x => { x with eye := .covered x.belt, list := modTagged p.tag Piece.reopened x.list }
  (s1.countShingle l p).abandonScan l p.tag

/-- A leading edge that finds the eye in GAP_HOLD (R52). -/
def State.edgeInGap (s : State) (l : Lane) (capturedBefore : Bool) : State :=
  if capturedBefore then
    match s.newest? l with
    | some p => if p.decisionTaken then s.modLane l (LaneS.pass true) else s.reopen l p
    | none => s.modLane l (LaneS.pass true)
  else s.modLane l (LaneS.pass false)

/-- LEADING_EDGE (R49 to R52). -/
def execLeadingEdge (l : Lane) (s : State) : Result :=
  if (s.lane l).eyeCovered then .next s
  else
    let s1 := s.modLane l fun x => { x with eyeCovered := true }
    .next
      (match (s.lane l).eye with
      | .armed => s1.edgeArmed l
      | .gapHold _ c => s1.edgeInGap l c
      | .idle | .covered _ | .passing _ => s1)

/-- A record takes its stored length; a length above max_len marks it OVERLENGTH (R53). -/
def Piece.measured (g : Geometry) (length : Nat) (p : Piece) : Piece :=
  let long := p.overlength || decide (g.maxLen < length)
  { p with length := some length, overlength := long, sampleWaitDue := !p.shingled && !long }

/-- The stored length of a span (R53): min_len for a shorter span of a record that is kept. -/
def storedLength (g : Geometry) (measured : Int) : Nat :=
  if measured < g.minLen then g.minLen else measured.toNat

/-- A trailing edge stores the newest record's length and starts a gap hold (R53); a record that
becomes OVERLENGTH has its scan abandoned (R55), another is tested for its samples (R69). -/
def State.storeLength (s : State) (l : Lane) (p : Piece) (length : Nat) : State :=
  let g := s.geometry l
  let s1 := s.modLane l fun x =>
    { x with
      eye := .gapHold (advance x.belt g.minGap) true
      list := modTagged p.tag (Piece.measured g length) x.list }
  let s2 := if !p.overlength && decide (g.maxLen < length) then s1.abandonScan l p.tag else s1
  match s2.piece? l p.tag with
  | some q => if sampleReady (s2.lane l) q then s2.askSlot l q.tag else s2
  | none => s2

/-- A trailing edge that finds the eye COVERED (R53). -/
def State.edgeCovered (s : State) (l : Lane) : State :=
  match s.newest? l with
  | none => s
  | some p =>
    let g := s.geometry l
    let d := signedDistance (s.lane l).belt p.lead
    if d < g.minLen && !p.shingled && !p.decisionTaken then
      (s.modLane l fun x => { x with eye := .armed }).retireOne l .glitch p
    else s.storeLength l p (storedLength g d)

/-- A trailing edge that finds the eye PASSING (R54). -/
def State.edgePassing (s : State) (l : Lane) (start : Pos) : State :=
  let g := s.geometry l
  s.modLane l fun x =>
    { x with
      eye := if signedDistance x.belt start < g.minLen then .armed else .gapHold (advance x.belt g.minGap) false }

/-- TRAILING_EDGE (R49, R50, R53, R54). -/
def execTrailingEdge (l : Lane) (s : State) : Result :=
  if (s.lane l).eyeCovered then
    let s1 := s.modLane l fun x => { x with eyeCovered := false }
    .next
      (match (s.lane l).eye with
      | .covered _ => s1.edgeCovered l
      | .passing st => s1.edgePassing l st
      | .idle | .armed | .gapHold _ _ => s1)
  else .next s

/-- The hold end of a GAP_HOLD is there to be taken (R50). -/
def LaneS.holdEndDue (x : LaneS) : Bool :=
  match x.eye with
  | .gapHold h _ => x.active && reached x.belt h
  | _ => false

/-- HOLD_END (R50). -/
def execHoldEnd (l : Lane) (s : State) : Result :=
  .next (if (s.lane l).holdEndDue then s.modLane l fun x => { x with eye := .armed } else s)

/-- The covered limit is reached (R56). -/
def LaneS.coveredLimitDue (g : Geometry) (x : LaneS) : Bool :=
  match x.eye.start? with
  | some st => x.active && reached x.belt (advance st (g.maxCovered + 1))
  | none => false

/-- COVERED_LIMIT (R56). -/
def execCoveredLimit (l : Lane) (s : State) : Result :=
  .next (if (s.lane l).coveredLimitDue (s.geometry l) then s.jamCause l .eyeBlocked else s)

/-! ### Track events of the tracker and of Scan Capture -/

/-- The eye is COVERED over this record: it is the newest record (R49). -/
def LaneS.coveredOver (x : LaneS) (p : Piece) : Bool :=
  match x.eye, x.list.getLast? with
  | .covered _, some q => q.tag == p.tag
  | _, _ => false

/-- The overlength point of a record is there to be taken (R43, R55). -/
def LaneS.overlengthDue (g : Geometry) (x : LaneS) (p : Piece) : Bool :=
  x.active && x.coveredOver p && !p.overlengthTaken && reached x.belt (advance p.lead (g.maxLen + 1))

/-- OVERLENGTH_POINT (R55). -/
def execOverlengthPoint (l : Lane) (tag : Tag) (s : State) : Result :=
  match s.piece? l tag with
  | none => .next s
  | some p =>
    .next
      (if (s.lane l).overlengthDue (s.geometry l) p then
        (s.modPiece l tag fun p => { p with overlength := true, overlengthTaken := true }).abandonScan l tag
      else s)

/-- The sample-wait expiry of a record is there to be taken (R43). -/
def LaneS.sampleWaitReached (g : Geometry) (x : LaneS) (p : Piece) : Bool :=
  match p.length with
  | some n => x.active && p.sampleWaitDue && reached x.belt (advance (trailing p n) g.sampleWait)
  | none => false

/-- SAMPLE_WAIT_EXPIRY: a record still COLLECTING becomes ready (R69). -/
def execSampleWaitExpiry (l : Lane) (tag : Tag) (s : State) : Result :=
  match s.piece? l tag with
  | none => .next s
  | some p =>
    .next
      (if (s.lane l).sampleWaitReached (s.geometry l) p then
        let s1 := s.modPiece l tag fun p => { p with sampleWaitDue := false }
        if p.scan = .collecting then s1.askSlot l tag else s1
      else s)

/-- The retirement of a record is there to be taken: its length is present, its decision and pocket
points have been taken, and lead + length + d_stack is reached (R43). -/
def LaneS.retirementDue (g : Geometry) (x : LaneS) (p : Piece) : Bool :=
  match p.length with
  | some n =>
    x.active && p.decisionTaken && p.pocketTaken && reached x.belt (advance (trailing p n) g.dStack)
  | none => false

/-- RETIREMENT (R60). -/
def execRetirement (l : Lane) (tag : Tag) (s : State) : Result :=
  match s.piece? l tag with
  | none => .next s
  | some p => .next (if (s.lane l).retirementDue (s.geometry l) p then s.retireOne l .ordinary p else s)

end Sys2Proof.Machine
end

