-- ==== Sys2Proof/Machine/Completion.lean ====
section
/-! DEFINITION. The Command Interpreter: taking a command, and what every completion has in common
(R19, R20). -/

namespace Sys2Proof.Machine

/-- The command that is executing, when its code is the given one. -/
def State.executingCode (s : State) (code : Byte) : Option Cmd := s.interp.executing.filter fun c => c.code == code

/-- The completion of a command of one code (R19, R20): the length check, then the range checks, each
answered with the part's state as it was, and then what the owning block does. While no command of
this code is executing the completion is not there, and nothing changes (log entry 1). -/
def State.completion {α : Type} (s : State) (code : Byte) (parse : List Byte → Args α)
    (act : State → Cmd → α → State) : State :=
  match s.executingCode code with
  | none => s
  | some c =>
    match parse c.args with
    | .wrongLength => s.complete c .badCommand []
    | .outOfRange => s.complete c .badArgument []
    | .valid a => act s c a

/-- COMMAND_TAKE: the free interpreter takes the command at the head of the queue (R19). -/
def execCommandTake (s : State) : Result :=
  .next
    (match s.interp.executing, s.interp.queue with
    | none, c :: cs => { s with interp := { queue := cs, executing := some c } }
    | _, _ => s)

/-- The command codes of the LF2 (12.2). -/
def commandCodes : List Byte :=
  [0x01, 0x02, 0x03, 0x04, 0x05, 0x06, 0x07, 0x08, 0x09, 0x10, 0x11, 0x12, 0x18, 0x19, 0x1A, 0x20, 0x21, 0x28, 0x29,
    0x30, 0x38, 0x39, 0x3A, 0x3B, 0x3C, 0x3D, 0x3E, 0x3F, 0x40]

/-- UNKNOWN_COMMAND: a command whose code names no command is answered BAD_COMMAND (R20). -/
def execUnknownCommand (s : State) : Result :=
  .next
    (match s.interp.executing with
    | none => s
    | some c => if commandCodes.contains c.code then s else s.complete c .badCommand [])

end Sys2Proof.Machine
end

