-- ==== Sys2Proof/Machine/Scoring.lean ====
section
/-! DEFINITION. The Corner Scorer: the engine, corner arithmetic, the finding, the Signature lookup
and the completion (chapter 5), with audit capture (R77). -/

namespace Sys2Proof.Machine

/-! ### Scoring one corner (5.3) -/

/-- A sample's value in a channel. -/
def Sample.value (x : Sample) : Channel → Nat
  | .ph => x.ph
  | .fl => x.fl

/-- A reference in a channel. -/
def Refs.value (r : Refs) : Channel → Nat
  | .ph => r.ph
  | .fl => r.fl

/-- The floor of a channel (R82). -/
def ChannelRecord.floor (c : ChannelRecord) : Channel → Nat
  | .ph => c.floorPH
  | .fl => c.floorFL

/-- The run level of a channel (R82). -/
def ChannelRecord.runLevel (c : ChannelRecord) : Channel → Nat
  | .ph => c.runLevelPH
  | .fl => c.runLevelFL

/-- The excess of a sample (R85): 0 for a missing one and for one at or below ref + floor. -/
def excess (ch : Channel) (ref floor : Nat) : Option Sample → Nat
  | none => 0
  | some x => x.value ch - (ref + floor)

/-- The saturating sum of the excesses (R86). -/
def excessSum (es : List Nat) : Nat := min es.sum Config.maxSum

/-- The score of a sum over `m` samples (R86). -/
def scoreOf (sum m : Nat) : Nat := min (sum * 16 / m) 65535

/-- A sample qualifies for a run (R87). -/
def qualifies (ch : Channel) (ref floor level : Nat) (x : Option Sample) : Bool :=
  x.isSome && decide (level ≤ excess ch ref floor x)

/-- The longest run so far while samples are read one by one: `index` samples read, `current` the
run that is open, `best` the longest and `first` the index of its first sample. -/
structure RunScan where
  index : Nat
  current : Nat
  best : Nat
  first : Nat
  deriving DecidableEq, Repr

/-- One more sample (R87): a run longer than every earlier one becomes the best. -/
def RunScan.next (r : RunScan) (q : Bool) : RunScan :=
  let index := r.index + 1
  let current := if q then r.current + 1 else 0
  if r.best < current then { index := index, current := current, best := current, first := index + 1 - current }
  else { r with index := index, current := current }

/-- The longest run of a window and the index, from 1, of its first sample; the earliest of equals;
0 and 0 without any (R87). -/
def longestRun (qs : List Bool) : Nat × Nat :=
  let r := qs.foldl RunScan.next ⟨0, 0, 0, 0⟩
  (r.best, r.first)

/-- The number of missing samples of a window (R88). -/
def missingCount (w : List (Option Sample)) : Nat := (w.filter Option.isNone).length

/-- The results of one corner in one channel (R85 to R88). -/
def scoreChannel (c : ChannelRecord) (m : Nat) (r : Refs) (w : List (Option Sample)) (ch : Channel) : ChannelResult :=
  let run := longestRun (w.map (qualifies ch (r.value ch) (c.floor ch) (c.runLevel ch)))
  { score := scoreOf (excessSum (w.map (excess ch (r.value ch) (c.floor ch)))) m
    run := run.1, first := run.2, missing := missingCount w }

/-! ### Matching and the finding (5.4) -/

/-- A corner result in a channel. -/
def CornerResult.channel (r : CornerResult) : Channel → ChannelResult
  | .ph => r.ph
  | .fl => r.fl

/-- A corner's results satisfy a profile (R89). -/
def hits (p : Profile) (r : CornerResult) : Bool :=
  let c := r.channel p.channel
  p.enable && decide (p.scoreMin ≤ c.score ∧ c.score ≤ p.scoreMax) && decide (p.runMin ≤ c.run ∧ c.run ≤ p.runMax)
    && !r.isVoid

/-- The profile numbers in order. -/
def profileNumbers : List (Fin 8) := [0, 1, 2, 3, 4, 5, 6, 7]

/-- The results of one corner with its hit, the lowest-numbered profile it hits (R85 to R89). -/
def scoreCorner (t : Tables) (m : Nat) (r : Refs) (w : List (Option Sample)) : CornerResult :=
  let c : CornerResult :=
    { ph := scoreChannel t.channels m r w .ph, fl := scoreChannel t.channels m r w .fl
      isVoid := decide (m / 8 < missingCount w), hit := none }
  { c with hit := profileNumbers.find? fun n => hits (t.profiles.get n) c }

/-- The results of a job's four corners (R85 to R89). -/
def scoreJob (t : Tables) (j : Job) : PerCorner CornerResult :=
  { c1 := scoreCorner t j.m j.refs.aTop j.windows.c1, c2 := scoreCorner t j.m j.refs.aBottom j.windows.c2
    c3 := scoreCorner t j.m j.refs.bTop j.windows.c3, c4 := scoreCorner t j.m j.refs.bBottom j.windows.c4 }

/-- A corner that has a hit, with its hit profile, hit score, hit run and the run's first index. -/
structure CornerHit where
  corner : Corner
  profile : Fin 8
  score : Nat
  run : Nat
  first : Nat
  deriving DecidableEq, Repr

/-- A corner's hit score and run are those of its hit profile's channel (R89). -/
def cornerHit (t : Tables) (c : Corner) (r : CornerResult) : Option CornerHit :=
  r.hit.map fun n =>
    let x := r.channel (t.profiles.get n).channel
    { corner := c, profile := n, score := x.score, run := x.run, first := x.first }

/-- The corners with hits, C1 to C4. -/
def cornerHits (t : Tables) (rs : PerCorner CornerResult) : List CornerHit :=
  [cornerHit t .c1 rs.c1, cornerHit t .c2 rs.c2, cornerHit t .c3 rs.c3, cornerHit t .c4 rs.c4].filterMap id

/-- What the six cases of R90 give. -/
inductive Verdict where
  | noData
  | noMark
  | ambiguous
  | hit (h : CornerHit) (multi : Bool)
  deriving DecidableEq, Repr

/-- The corner with the highest hit score, the first of equals. -/
def bestHit : List CornerHit → Option CornerHit
  | [] => none
  | h :: hs =>
    match bestHit hs with
    | none => some h
    | some b => if h.score < b.score then some b else some h

/-- The highest score of a list of hits. -/
def topScore (hs : List CornerHit) : Nat := (hs.map CornerHit.score).foldl max 0

/-- The cases of R90 in order. -/
def verdict (rs : PerCorner CornerResult) (hs : List CornerHit) : Verdict :=
  if rs.c1.isVoid && rs.c2.isVoid && rs.c3.isVoid && rs.c4.isVoid then .noData
  else
    match bestHit hs with
    | none => .noMark
    | some b =>
      let others := hs.filter fun h => h.corner != b.corner
      if others.isEmpty then .hit b false
      else if others.any fun h => h.score == b.score then .ambiguous
      else if 2 * topScore others ≤ b.score then .hit b true
      else .ambiguous

/-- The stamp start of a hit (R91): the first sample's distance from the lead, `first` taken as 1
when the run is 0. -/
def stampStart (j : Job) (h : CornerHit) : Nat :=
  let i := 2 * ((if h.run = 0 then 1 else h.first) - 1)
  match h.corner with
  | .c2 | .c3 => i
  | .c1 | .c4 => j.length + i - 2 * j.m

/-! ### The lookup (R94, R95) -/

/-- A number held below a bound. -/
def clampFin (n : Nat) (x : Nat) : Fin (n + 1) := ⟨min x n, by omega⟩

/-- The signature key of a STAMP hit (R94). -/
def signatureKey (h : CornerHit) : SigKey :=
  { profile := h.profile, width := clampFin 31 (h.run / 8), band := clampFin 63 (h.score / 1024) }

/-- What a lookup gives (R95): the entry of exactly that key, or category 63, value 0 and PRECANCEL
clear. -/
def lookup (es : List SigEntry) (k : SigKey) : Fin 64 × Nat × Bool :=
  match es.find? fun e => e.key == k with
  | some e => (e.category, e.value, e.precancel)
  | none => (63, 0, false)

/-- A finding that is not a HIT (R96). -/
def plainFinding (r : FindingResult) : Finding :=
  { result := r, value := 0, precancel := false, multi := false, staleRef := false }

/-- The finding of a HIT (R91, R95, R96); only a STAMP hit is looked up. -/
def hitFinding (t : Tables) (j : Job) (h : CornerHit) (multi : Bool) : Finding :=
  let kind := (t.profiles.get h.profile).kind
  let base : Hit :=
    { corner := h.corner, profile := h.profile, kind := kind, score := h.score, run := h.run
      stampStart := stampStart j h, category := none }
  match kind with
  | .stamp =>
    let v := lookup t.signature (signatureKey h)
    { result := .hit { base with category := some v.1 }, value := v.2.1, precancel := v.2.2, multi := multi
      staleRef := false }
  | .meter | .permit => { plainFinding (.hit base) with multi := multi }

/-- The finding of a job, before STALE_REF (R90 to R96). -/
def findingOf (t : Tables) (j : Job) (rs : PerCorner CornerResult) : Finding :=
  match verdict rs (cornerHits t rs) with
  | .noData => plainFinding .noData
  | .noMark => plainFinding .noMark
  | .ambiguous => plainFinding .ambiguous
  | .hit h multi => hitFinding t j h multi

/-! ### The engine (R80, R81) -/

/-- The lane whose scoring queue is served (R80). -/
def queueToServe (k : Scorer) : Option Lane :=
  match k.queues.a, k.queues.b with
  | [], [] => none
  | _ :: _, [] => some .a
  | [], _ :: _ => some .b
  | _ :: _, _ :: _ => some (otherLane k.lastServed)

/-- The engine takes the head job of a lane's queue; its record goes from QUEUED to SCORING (R80). -/
def State.engineTakes (s : State) (l : Lane) : State :=
  match s.scorer.queues.get l with
  | [] => s
  | j :: js =>
    { s with
      scorer := { queues := s.scorer.queues.set l js, engine := some j, lastServed := l } }.modPiece l j.tag
        fun p => { p with scan := .scoring }

/-- The engine takes a job when it is idle and a queue holds one (R80). -/
def State.takeJob (s : State) : State :=
  match s.scorer.engine with
  | some _ => s
  | none =>
    match queueToServe s.scorer with
    | some l => s.engineTakes l
    | none => s

/-- ENGINE_TAKE (R80). -/
def execEngineTake (s : State) : Result := .next s.takeJob

/-! ### Completion (R97 to R99) -/

/-- The record of a job, when the finding is to be written: in the list and still SCORING (R98). -/
def State.scoringRecord (s : State) (j : Job) : Option Piece :=
  (s.piece? j.lane j.tag).filter fun p => p.scan == .scoring

/-- A record that takes a finding (R96, R98, R100). -/
def Piece.found (f : Finding) (p : Piece) : Piece :=
  { p with
    finding := some f, scan := .scored, value := f.value, multi := p.multi || f.multi
    staleRef := p.staleRef || f.staleRef, lateFound := p.lateFound || p.decisionTaken }

/-- The counters of a written finding (R97, R98). -/
def LaneCounters.written (late stale : Bool) (c : LaneCounters) : LaneCounters :=
  { c with
    lateFound := if late then satInc Config.max32 c.lateFound else c.lateFound
    staleRef := if stale then satInc Config.max32 c.staleRef else c.staleRef }

/-- The finding is written into its record, with STALE_REF while the lane's REFERENCE monitor is
DECLARED (R97, R98). -/
def State.writeFinding (s : State) (l : Lane) (p : Piece) (f : Finding) : State :=
  let stale := (s.lane l).monitors.reference.declared
  (s.modPiece l p.tag (Piece.found { f with staleRef := stale })).count l (LaneCounters.written p.decisionTaken stale)

/-- The job offered to the audit store (R77). -/
def State.offerAudit (s : State) (j : Job) (rs : PerCorner CornerResult) (r : FindingResult) : State :=
  match s.scan.auditStore with
  | some _ => s.count j.lane fun c => { c with auditSkipped := satInc Config.max32 c.auditSkipped }
  | none =>
    { s with
      scan :=
        { s.scan with
          auditStore :=
            some
              { lane := j.lane, tag := j.tag, m := j.m, windows := j.windows, refs := j.refs, corners := rs
                result := r } } }

/-- A written finding advances the lane's audit counter; at the interval the job is offered to the
store and the counter starts again (R77). -/
def State.advanceAudit (s : State) (j : Job) (rs : PerCorner CornerResult) (r : FindingResult) : State :=
  let n := (s.lane j.lane).auditCounter + 1
  if s.scan.auditInterval = 0 then s
  else if n < s.scan.auditInterval then s.modLane j.lane fun x => { x with auditCounter := n }
  else (s.modLane j.lane fun x => { x with auditCounter := 0 }).offerAudit j rs r

/-- The finding of a job is written, and the audit counter advanced; or it is discarded (R98,
R99.1, R99.2). -/
def State.scored (s : State) (j : Job) : State :=
  let rs := scoreJob s.store.tables j
  let f := findingOf s.store.tables j rs
  match s.scoringRecord j with
  | some p => (s.writeFinding j.lane p f).advanceAudit j rs f.result
  | none => s

/-- SCORING_COMPLETE (R98, R99): finding, audit, slot, and the engine takes its next job. -/
def execScoringComplete (s : State) : Result :=
  match s.scorer.engine with
  | none => .next s
  | some j =>
    let s1 := s.scored j
    .next ({ s1 with scorer := { s1.scorer with engine := none } }.passSlotOn).takeJob

end Sys2Proof.Machine
end

