-- ==== Sys2Proof/Machine/AuditCommands.lean ====
section
/-! DEFINITION. Scan Capture's commands: PIECE_AUDIT, AUDIT_READ and AUDIT_RELEASE (R77, R78). -/

namespace Sys2Proof.Machine

/-- The argument of PIECE_AUDIT: an interval of 0 to 1,000 (R77). -/
def auditArg : List Byte → Args Nat
  | [h, l] => inRange (within 0 1000 (beNat [h, l]))
  | _ => .wrongLength

/-- The audit interval is set, and both lanes' audit counters become 0 (R77). -/
def State.setAudit (s : State) (n : Nat) : State :=
  (({ s with scan := { s.scan with auditInterval := n } }.modLane .a fun x => { x with auditCounter := 0 }).modLane .b)
    fun x => { x with auditCounter := 0 }

/-- PIECE_AUDIT (R77). -/
def execPieceAudit (s : State) : Result := .next (s.completion 0x18 auditArg fun s c n => (s.setAudit n).done c)

/-- The arguments of AUDIT_READ: a corner and a chunk of 0 to 7 (R78). -/
def auditReadArgs : List Byte → Args (Corner × Nat)
  | [c, k] => inRange do return (← cornerOf c, ← within 0 7 k.toNat)
  | _ => .wrongLength

/-- The references of a corner's band (R71). -/
def PerBand.ofCorner {α : Type} (r : PerBand α) : Corner → α
  | .c1 => r.aTop
  | .c2 => r.aBottom
  | .c3 => r.bTop
  | .c4 => r.bBottom

/-- A sample of an audit block; a missing one reads 0xFFFF in both channels (12.2). -/
def sampleBytes : Option Sample → List Byte
  | some x => beBytes 2 x.ph ++ beBytes 2 x.fl
  | none => [0xFF, 0xFF, 0xFF, 0xFF]

/-- One channel's results of an audit block (12.2). -/
def ChannelResult.bytes (r : ChannelResult) : List Byte := beBytes 2 r.score ++ [byte r.run, byte r.first, byte r.missing]

/-- The samples of a chunk: 25 × chunk + 1 up to the smaller of 25 × chunk + 25 and m (R78). -/
def chunkOf (w : List (Option Sample)) (chunk : Nat) : List (Option Sample) := (w.drop (25 * chunk)).take 25

/-- The audit block (R78, 12.2). Its result and corner bytes are the finding's, as R78 lists the
finding before the chosen corner's data: DEDUCED (log entry 9). The void flag is 1 for a void corner
and 0 for another: PRESUMED (log entry 6). -/
def Audit.block (t : Audit) (c : Corner) (chunk : Nat) : List Byte :=
  let r := t.corners.get c
  let refs := t.refs.ofCorner c
  let w := chunkOf (t.windows.get c) chunk
  [byte (laneNat t.lane)] ++ tagBytes t.tag
    ++ [byte t.m, byte t.result.toNat, optByte (t.result.hit?.map fun h => h.corner.toNat)]
    ++ beBytes 2 refs.ph ++ beBytes 2 refs.fl ++ r.ph.bytes ++ r.fl.bytes
    ++ [byte (switchNat r.isVoid), optByte (r.hit.map Fin.val), byte w.length] ++ (w.map sampleBytes).flatten

/-- AUDIT_READ (R78). -/
def execAuditRead (s : State) : Result :=
  .next
    (s.completion 0x19 auditReadArgs fun s c a =>
      match s.scan.auditStore with
      | none => s.complete c .wrongState []
      | some t => s.complete c .done (t.block a.1 a.2))

/-- AUDIT_RELEASE: the audit store becomes empty (R78). -/
def execAuditRelease (s : State) : Result :=
  .next (s.completion 0x1A noArgs fun s c _ => { s with scan := { s.scan with auditStore := none } }.done c)

end Sys2Proof.Machine
end

