-- ==== Sys2Proof/Machine/CountCommands.lean ====
section
/-! DEFINITION. The Count Bank's command: COUNT_SNAPSHOT (R149, R150). -/

namespace Sys2Proof.Machine

/-- A counter group (R149). -/
inductive Group where
  | lane (l : Lane)
  | block (n : Fin 4)
  deriving DecidableEq, Repr

/-- Groups by their number (12.2). -/
def groupOf (b : Byte) : Option Group :=
  match b.toNat with
  | 0 => some (.lane .a)
  | 1 => some (.lane .b)
  | 2 => some (.block 0)
  | 3 => some (.block 1)
  | 4 => some (.block 2)
  | 5 => some (.block 3)
  | _ => none

/-- The arguments of COUNT_SNAPSHOT: a group and a clear switch (R149). -/
def snapshotArgs : List Byte → Args (Group × Bool)
  | [g, x] => inRange do return (← groupOf g, ← switchOf x)
  | _ => .wrongLength

/-- The 25 lane counters in the order of R145. -/
def LaneCounters.values (c : LaneCounters) : List Nat :=
  [c.captured, c.untracked] ++ c.dispositions.toList
    ++ [c.strikes, c.missed, c.suppressed, c.shingled, c.lateFound, c.staleRef, c.sampleRange, c.auditSkipped]

/-- The category records of a block, sixteen of them (R149). -/
def State.blockRecords (s : State) (n : Fin 4) : List CategoryRecord := (s.categories.toList.drop (16 * n.val)).take 16

/-- The result data of a group (12.2). -/
def State.groupData (s : State) : Group → List Byte
  | .lane l => ((s.lane l).counters.values.map (beBytes 4)).flatten ++ [byte (s.lane l).list.length]
  | .block n => ((s.blockRecords n).map fun r => beBytes 4 r.pieces ++ beBytes 4 r.valueTotal).flatten

/-- A lane group is cleared: CAPTURED becomes the list size, the other counters 0 (R150). -/
def LaneS.clearCounters (x : LaneS) : LaneS := { x with counters := { LaneCounters.zero with captured := x.list.length } }

/-- A category block is cleared (R150). -/
def clearBlock (n : Fin 4) (cs : Vector CategoryRecord 64) : Vector CategoryRecord 64 :=
  cs.mapIdx fun i r => if i / 16 = n.val then { pieces := 0, valueTotal := 0 } else r

/-- A group is cleared (R150). -/
def State.clearGroup (s : State) : Group → State
  | .lane l => s.modLane l LaneS.clearCounters
  | .block n => { s with categories := clearBlock n s.categories }

/-- COUNT_SNAPSHOT: the group's values as they stand, and then its clear when asked (R149, R150). -/
def execCountSnapshot (s : State) : Result :=
  .next
    (s.completion 0x30 snapshotArgs fun s c a =>
      (if a.2 then s.clearGroup a.1 else s).complete c .done (s.groupData a.1))

end Sys2Proof.Machine
end

