-- ==== Sys2Proof/Machine/Cancel.lean ====
section
/-! DEFINITION. The Cancel Scheduler: the booking check, bookings, strikes and ink (chapter 7). -/

namespace Sys2Proof.Machine

/-- The die is complete: the common record is loaded and a date has been set (R116, R126). -/
def State.dieComplete (s : State) : Bool := s.store.tables.dieCommon.loaded && s.date.isSome

/-- The head's distance from the eye (R117). -/
def headDistance (g : Geometry) : HeadId → Nat
  | .l => g.dHeadL
  | .t => g.dHeadT

/-- Where a strike starts: lead + d_head + the larger of (stamp start − lead_in) and 0 (R117). -/
def strikeStartPos (g : Geometry) (h : HeadId) (lead : Pos) (stampStart : Nat) : Pos :=
  advance lead (headDistance g h + (stampStart - g.leadIn))

/-- The answers of the booking check (R118). -/
inductive Booking where
  | bookable
  | missed
  | suppressed (reason : SuppressReason)
  deriving DecidableEq, Repr

/-- The booking check: the first case that applies, changing nothing (R118). -/
def State.bookingCheck (s : State) (l : Lane) (h : HeadId) (lead : Pos) (stampStart : Nat) : Booking :=
  let x := s.head l h
  if x.fault then .suppressed .fault
  else if !s.dieComplete then .suppressed .die
  else if x.ink || decide (x.units < x.reserved + (s.dieHead l h).inkCost) then .suppressed .ink
  else if Config.bookingDepth ≤ x.booking.length then .missed
  else if !reached (strikeStartPos (s.geometry l) h lead stampStart) x.freePos then .missed
  else .bookable

/-- The die of a head as it stands (R119). -/
def State.dieNow (s : State) (l : Lane) (h : HeadId) : Die :=
  let c := s.store.tables.dieCommon
  { officeCode := c.officeCode, officeName := c.officeName, lineNumber := c.lineNumber
    date := s.date.getD ⟨0, 0, 0, 0⟩, text := (s.dieHead l h).text }

/-- The strike a booking enters (R119). -/
def State.newStrike (s : State) (l : Lane) (h : HeadId) (tag : Tag) (start : Pos) : Strike :=
  { tag := tag, start := start, stop := advance start (s.geometry l).strikeLen
    cost := (s.dieHead l h).inkCost, die := s.dieNow l h, started := false }

/-- A head takes a strike: it joins the booking list, its cost is reserved, and free_pos moves
(R119). -/
def Head.book (g : Geometry) (k : Strike) (x : Head) : Head :=
  { x with
    booking := x.booking ++ [k]
    reserved := x.reserved + k.cost
    freePos := advance k.start (g.strikeLen + g.recoverLen) }

/-- A booking is made: the head takes the strike and the record becomes BOOKED (R119.1 to
R119.5). -/
def State.book (s : State) (l : Lane) (h : HeadId) (tag : Tag) (start : Pos) : State :=
  let k := s.newStrike l h tag start
  (s.modHead l h (Head.book (s.geometry l) k)).modPiece l tag fun p =>
    { p with cancel := .booked, strikeStart := some start }

/-- The STRIKE frame of a booking (R119). -/
def strikeMsg (h : HeadId) (k : Strike) : ActMsg := .strike h k.tag k.start k.stop k.die

/-- The booking list with one record's strike changed. -/
def modStrike (tag : Tag) (f : Strike → Strike) (ks : List Strike) : List Strike :=
  ks.map fun k => if k.tag = tag then f k else k

/-- A strike whose start has been taken: its cost is 0 from then on (R121). -/
def Strike.taken (k : Strike) : Strike := { k with cost := 0, started := true }

/-- A fired strike spends its ink (R121). -/
def Head.fire (k : Strike) (x : Head) : Head :=
  { x with
    units := x.units - k.cost, reserved := x.reserved - k.cost
    booking := modStrike k.tag Strike.taken x.booking }

/-- A suppressed strike releases its ink unspent (R121). -/
def Head.suppress (k : Strike) (x : Head) : Head :=
  { x with reserved := x.reserved - k.cost, booking := modStrike k.tag Strike.taken x.booking }

/-- INK LOW after a fired strike (R122): the units were at or above ink_low before and are below it
after. -/
def State.testInkLow (s : State) (l : Lane) (h : HeadId) (before : Nat) : State :=
  let u := (s.head l h).units
  let low := (s.dieHead l h).inkLow
  if low ≤ before ∧ u < low then (s.setLatch .inkLow).notice .ink (.inkLow l h u low) else s

/-- INK OUT after a fired strike (R122): the units are below the ink cost and the INK inhibit is
clear. -/
def State.testInkOut (s : State) (l : Lane) (h : HeadId) : State :=
  let u := (s.head l h).units
  let cost := (s.dieHead l h).inkCost
  if u < cost ∧ (s.head l h).ink = false then
    ((s.modHead l h fun x => { x with ink := true }).setLatch .inkOut).notice .ink (.inkOut l h u cost)
  else s

/-- A strike is fired (R121, R122). -/
def State.fireStrike (s : State) (l : Lane) (h : HeadId) (k : Strike) : State :=
  let before := (s.head l h).units
  let s1 := (s.modHead l h (Head.fire k)).modPiece l k.tag fun p => { p with cancel := .struck }
  let s2 := s1.count l fun c => { c with strikes := satInc Config.max32 c.strikes }
  (s2.testInkLow l h before).testInkOut l h

/-- A record whose strike is suppressed by a fault (R121). -/
def Piece.faulted (p : Piece) : Piece :=
  { p with
    cancel := .suppressed .fault
    disposition := if p.disposition = some .facedCancelled then some .facedHand else p.disposition }

/-- A strike is suppressed (R121). -/
def State.suppressStrike (s : State) (l : Lane) (h : HeadId) (k : Strike) : State :=
  ((s.modHead l h (Head.suppress k)).modPiece l k.tag Piece.faulted).count l fun c =>
    { c with suppressed := satInc Config.max32 c.suppressed }

/-- The strike of a record in a head's booking list. -/
def Head.strike? (x : Head) (tag : Tag) : Option Strike := x.booking.find? fun k => k.tag == tag

/-- STRIKE_START: a booked strike's start is reached; it fires, or is suppressed by a FAULT inhibit
(R121). -/
def execStrikeStart (l : Lane) (h : HeadId) (tag : Tag) (s : State) : Result :=
  match (s.head l h).strike? tag with
  | none => .next s
  | some k =>
    .next
      (if (s.lane l).active && !k.started && reached (s.lane l).belt k.start then
        if (s.head l h).fault then s.suppressStrike l h k else s.fireStrike l h k
      else s)

/-- STRIKE_END: the strike leaves its head's booking list (R123). -/
def execStrikeEnd (l : Lane) (h : HeadId) (tag : Tag) (s : State) : Result :=
  match (s.head l h).strike? tag with
  | none => .next s
  | some k =>
    .next
      (if (s.lane l).active && k.started && reached (s.lane l).belt k.stop then
        s.modHead l h fun x => { x with booking := x.booking.filter fun k => !(k.tag == tag) }
      else s)

end Sys2Proof.Machine
end

