-- ==== Sys2Proof/Machine/Pockets.lean ====
section
/-! DEFINITION. The Pocket Manager: selectability, the pocket choice and the pocket point
(chapter 8). -/

namespace Sys2Proof.Machine

/-- A pocket that becomes FULL sets its latch and builds the POCKET FULL notice (R132, R136). -/
def State.pocketFull (s : State) (l : Lane) (k : Fin 10) (v : Levels) : State :=
  let x := s.pocket l k
  ((s.modPocket l k fun x => { x with state := .full }).setLatch .pocketFull).notice .pocket
    (.pocketFull l k x.count x.inbound v.fullLevel)

/-- OPEN-selectable (R134). -/
def openSelectable (v : Levels) (k : Pocket) : Bool :=
  k.state == .opened && decide (k.count + k.inbound < v.fullLevel)

/-- Overfill-selectable (R134). -/
def overfillSelectable (v : Levels) (k : Pocket) : Bool :=
  k.state == .full && decide (k.count + k.inbound < v.hardLevel)

/-- Place of a route among the nine (R131, R172); no other pair of stream and class is a route. -/
def routeIndex : Stream → RouteClass → Option (Fin 9)
  | .l, .cancelled => some 0
  | .l, .hand => some 1
  | .l, .meter => some 2
  | .l, .permit => some 3
  | .t, .cancelled => some 4
  | .t, .hand => some 5
  | .t, .meter => some 6
  | .t, .permit => some 7
  | .x, .reject => some 8
  | _, _ => none

/-- The pocket list of a route (R131). -/
def Stacker.list (m : Stacker) (st : Stream) (c : RouteClass) : List (Fin 10) :=
  match routeIndex st c with
  | some r => m.routes.get r
  | none => []

/-- One lane's half of the Stacker Map. -/
def State.stackerMap (s : State) (l : Lane) : Stacker := s.store.tables.stacker.get l

/-- The pocket a list gives: the first OPEN-selectable one, or else the first overfill-selectable
one (R136). -/
def State.choose (s : State) (l : Lane) (ks : List (Fin 10)) : Option (Fin 10) :=
  let v := fun k => (s.stackerMap l).levels.get k
  match ks.find? fun k => openSelectable (v k) (s.pocket l k) with
  | some k => some k
  | none => ks.find? fun k => overfillSelectable (v k) (s.pocket l k)

/-- The availability question: the list of a route holds a selectable pocket (R134). -/
def State.available (s : State) (l : Lane) (st : Stream) (c : RouteClass) : Bool :=
  ((s.stackerMap l).list st c).any fun k =>
    let v := (s.stackerMap l).levels.get k
    openSelectable v (s.pocket l k) || overfillSelectable v (s.pocket l k)

/-- The route class of a stream L or T record with a HIT finding (R135). -/
def hitRoute (kind : MarkKind) (precancel : Bool) (cancel : CancelState) : RouteClass :=
  match kind with
  | .meter => .meter
  | .permit => .permit
  | .stamp => if cancel = .struck || precancel then .cancelled else .hand

/-- The route class settled at the pocket point, from the record as it stands (R135). A record
in stream X is a reject; so is taken one without a stream or a HIT, which no decided record of
stream L or T is. -/
def settleRoute (p : Piece) : RouteClass :=
  match p.stream, p.finding with
  | some .l, some f | some .t, some f =>
    match f.result.hit? with
    | some h => hitRoute h.kind f.precancel p.cancel
    | none => .reject
  | _, _ => .reject

/-- The choice's effects on a pocket (R136.2, R136.3). -/
def State.assign (s : State) (l : Lane) (k : Fin 10) : State :=
  let v := (s.stackerMap l).levels.get k
  let s1 := s.modPocket l k fun x => { x with inbound := x.inbound + 1 }
  let x := s1.pocket l k
  if x.state = .opened ∧ v.fullLevel ≤ x.count + x.inbound then s1.pocketFull l k v else s1

/-- The POCKET frame of a choice (R142). -/
def pocketMsg (g : Geometry) (eye : Eye) (p : Piece) (k : Fin 10) : ActMsg :=
  .pocket p.tag k (advance p.lead g.dPocket) (advance p.lead (extent g eye p + g.dStack))

/-- A pocket is chosen for a record (R136, R143). -/
def State.takePocket (s : State) (l : Lane) (p : Piece) (k : Fin 10) : State :=
  let s1 := (s.modPiece l p.tag fun q => { q with pocket := some k }).assign l k
  s1.placeAct l (pocketMsg (s.geometry l) (s.lane l).eye p k)

/-- Some strike of the record has not started yet (R117, R135). -/
def LaneS.strikeAhead (x : LaneS) (tag : Tag) : Bool :=
  (x.heads.l.booking ++ x.heads.t.booking).any fun k => k.tag == tag && !k.started

/-- The pocket point of a record is there to be taken: its decision point has been taken, a booked
strike of it has started (R117), and lead + d_pocket is reached (R43). -/
def LaneS.pocketPointDue (g : Geometry) (x : LaneS) (p : Piece) : Bool :=
  x.active && p.decisionTaken && !p.pocketTaken && !x.strikeAhead p.tag && reached x.belt (advance p.lead g.dPocket)

/-- The record's route class is settled as its pocket point is taken (R135). -/
def Piece.atPocketPoint (p : Piece) : Piece := { p with pocketTaken := true, route := some (settleRoute p) }

/-- The pocket list asked at a record's pocket point (R135, R136). -/
def State.pocketList (s : State) (l : Lane) (p : Piece) : List (Fin 10) :=
  (s.stackerMap l).list (p.stream.getD .x) (settleRoute p)

/-- POCKET_POINT (R135 to R137). -/
def execPocketPoint (l : Lane) (tag : Tag) (s : State) : Result :=
  match s.piece? l tag with
  | none => .next s
  | some p =>
    .next
      (if (s.lane l).pocketPointDue (s.geometry l) p then
        let s1 := s.modPiece l tag Piece.atPocketPoint
        match s.choose l (s.pocketList l p) with
        | some k => s1.takePocket l p k
        | none => s1.jamCause l .noPocket
      else s)

end Sys2Proof.Machine
end

