-- ==== Sys2Proof/Machine/Facing.lean ====
section
/-! DEFINITION. The Facing Unit: the decision point, its checks, the commit and the frames of a
decision (chapter 6). -/

namespace Sys2Proof.Machine

/-- The wanted setting of a corner (R101). -/
def wantedSetting : Corner → GateSetting
  | .c1 => .pass
  | .c2 => .flip
  | .c3 => .pass
  | .c4 => .flip

/-- The cancel head that can strike a corner's mark (R101). -/
def wantedHead : Corner → HeadId
  | .c1 => .t
  | .c2 => .l
  | .c3 => .l
  | .c4 => .t

/-- The stream of a head. -/
def headStream : HeadId → Stream
  | .l => .l
  | .t => .t

/-- The wanted stream of a corner (R101). -/
def wantedStream (c : Corner) : Stream := headStream (wantedHead c)

/-- A record's gate position (R103). -/
def gatePos (g : Geometry) (p : Piece) : Pos := advance p.lead g.dGate

/-- The gate is clear for a record (R103). -/
def gateClear (g : Geometry) (gt : Gate) (p : Piece) : Bool := reached (gatePos g p) gt.freePos

/-- What the checks of a decision give (R104): a reject's disposition, or a commit with the route
class, the cancel state to write, the disposition, and whether a booking is made (R106, R108). -/
inductive Decision where
  | reject (d : Disposition)
  | face (h : Hit) (route : RouteClass) (cancel : CancelState) (d : Disposition) (book : Bool)
  deriving DecidableEq, Repr

/-- Check 7: the route class of a HIT record, with the cancel state and disposition its commit
writes (R106, R108). -/
def State.routeCheck (s : State) (l : Lane) (p : Piece) (f : Finding) (h : Hit) : Decision :=
  match h.kind with
  | .meter => .face h .meter .notRequired .facedMeter false
  | .permit => .face h .permit .notRequired .facedPermit false
  | .stamp =>
    if f.precancel then .face h .cancelled .notRequired .facedPrecancel false
    else
      match s.bookingCheck l (wantedHead h.corner) p.lead h.stampStart with
      | .bookable => .face h .cancelled .booked .facedCancelled true
      | .missed => .face h .hand .missed .facedHand false
      | .suppressed r => .face h .hand (.suppressed r) .facedHand false

/-- Check 8: a faced record needs a selectable pocket of its route (R107). -/
def State.pocketCheck (s : State) (l : Lane) : Decision → Decision
  | .reject d => .reject d
  | .face h route cancel d book =>
    if s.available l (wantedStream h.corner) route then .face h route cancel d book else .reject .rejectPocket

/-- Checks 6 to 8 of a HIT record (R104 to R107). -/
def State.decideHit (s : State) (l : Lane) (p : Piece) (f : Finding) (h : Hit) : Decision :=
  let gt := (s.lane l).gate
  if wantedSetting h.corner ≠ gt.setting ∧ gateClear (s.geometry l) gt p = false then .reject .rejectGate
  else s.pocketCheck l (s.routeCheck l p f h)

/-- The checks of a decision, in order (R104). -/
def State.decision (s : State) (l : Lane) (p : Piece) : Decision :=
  if p.shingled || p.overlength then .reject .rejectDouble
  else
    match p.scan, p.finding with
    | .scored, some f =>
      match f.result with
      | .noData => .reject .rejectScan
      | .noMark => .reject .rejectNomark
      | .ambiguous => .reject .rejectAmbiguous
      | .hit h => s.decideHit l p f h
    | _, _ => .reject .rejectLate

/-- A rejected record's fields (R109). -/
def Piece.rejected (setting : GateSetting) (d : Disposition) (p : Piece) : Piece :=
  { p with disposition := some d, stream := some .x, route := some .reject, gate := some setting }

/-- REJECT_LATE is handed to the window's LATE count (R109, R155). -/
def State.countLate (s : State) (l : Lane) (d : Disposition) : State :=
  if d = .rejectLate then s.countWindow l fun w => { w with late := satInc Config.max16 w.late } else s

/-- A faced record's fields (R108.3); the booking has already written BOOKED. -/
def Piece.faced (h : Hit) (route : RouteClass) (cancel : CancelState) (d : Disposition) (p : Piece) : Piece :=
  { p with
    gate := some (wantedSetting h.corner), stream := some (wantedStream h.corner), route := some route
    cancel := cancel, disposition := some d }

/-- The counter of a faced record that cannot be struck (R108.4). -/
def State.countUnstruck (s : State) (l : Lane) : CancelState → State
  | .missed => s.count l fun c => { c with missed := satInc Config.max32 c.missed }
  | .suppressed _ => s.count l fun c => { c with suppressed := satInc Config.max32 c.suppressed }
  | _ => s

/-- The outcome of a decision written to the record, the gate's setting and the head (R108,
R109). -/
def State.settle (s : State) (l : Lane) (p : Piece) : Decision → State
  | .reject d =>
    (s.modPiece l p.tag (Piece.rejected (s.lane l).gate.setting d)).countLate l d
  | .face h route cancel d book =>
    let start := strikeStartPos (s.geometry l) (wantedHead h.corner) p.lead h.stampStart
    let s1 := s.modLane l fun x => { x with gate := { x.gate with setting := wantedSetting h.corner } }
    let s2 := if book then s1.book l (wantedHead h.corner) p.tag start else s1
    (s2.modPiece l p.tag (Piece.faced h route cancel d)).countUnstruck l cancel

/-- After every decision the gate's free_pos becomes g + extent + gate_settle (R110). -/
def State.updateFreePos (s : State) (l : Lane) (p : Piece) : State :=
  let g := s.geometry l
  s.modLane l fun x =>
    { x with gate := { x.gate with freePos := advance (gatePos g p) (extent g x.eye p + g.gateSettle) } }

/-- The stream a decision gives its piece. -/
def Decision.stream : Decision → Stream
  | .reject _ => .x
  | .face h .. => wantedStream h.corner

/-- The GATE frame of a commit that changes the setting (R111). -/
def gateMsgs (g : Geometry) (old : GateSetting) (p : Piece) : Decision → List ActMsg
  | .reject _ => []
  | .face h .. =>
    if wantedSetting h.corner = old then []
    else [.gate p.tag (wantedSetting h.corner) (gatePos g p - BitVec.ofNat 24 g.gateSettle) (gatePos g p)]

/-- The STRIKE frame of a commit that makes a booking (R119). -/
def State.strikeMsgs (s : State) (l : Lane) (p : Piece) : Decision → List ActMsg
  | .face h _ _ _ true =>
    let hd := wantedHead h.corner
    [strikeMsg hd (s.newStrike l hd p.tag (strikeStartPos (s.geometry l) hd p.lead h.stampStart))]
  | _ => []

/-- The DIVERT frame of every decision (R112). -/
def divertMsg (g : Geometry) (eye : Eye) (p : Piece) (d : Decision) : ActMsg :=
  .divert p.tag d.stream (gatePos g p) (advance (gatePos g p) (extent g eye p))

/-- The frames of a decision in their order: GATE, STRIKE, DIVERT (R113). -/
def State.decisionMsgs (s : State) (l : Lane) (p : Piece) (d : Decision) : List ActMsg :=
  gateMsgs (s.geometry l) (s.lane l).gate.setting p d ++ s.strikeMsgs l p d
    ++ [divertMsg (s.geometry l) (s.lane l).eye p d]

/-- Frames of one decision are placed in order; once the lane has jammed the rest are discarded
(R113). -/
def State.placeAll (s : State) (l : Lane) (ms : List ActMsg) : State :=
  ms.foldl (fun s m => if (s.lane l).state = .jammed then s else s.placeAct l m) s

/-- A record is decided, its scan having been settled (R104 to R113). -/
def State.decidePiece (s : State) (l : Lane) (p : Piece) : State :=
  let d := s.decision l p
  ((s.settle l p d).updateFreePos l p).placeAll l (s.decisionMsgs l p d)

/-- The decision point of a record is there to be taken: not taken before, every older record
decided, and lead + d_decide reached (R43). -/
def LaneS.decisionDue (g : Geometry) (x : LaneS) (p : Piece) : Bool :=
  x.active && !p.decisionTaken && (x.list.takeWhile fun q => q.tag != p.tag).all Piece.decisionTaken
    && reached x.belt (advance p.lead g.dDecide)

/-- DECISION_POINT (R104): Scan Capture settles the scan, then the record is decided. -/
def execDecisionPoint (l : Lane) (tag : Tag) (s : State) : Result :=
  match s.piece? l tag with
  | none => .next s
  | some p =>
    .next
      (if (s.lane l).decisionDue (s.geometry l) p then
        let s1 := (s.modPiece l tag fun q => { q with decisionTaken := true }).settleScan l tag
        match s1.piece? l tag with
        | some q => s1.decidePiece l q
        | none => s1
      else s)

end Sys2Proof.Machine
end

