-- ==== Sys2Proof/Machine/HeadCommands.lean ====
section
/-! DEFINITION. The Cancel Scheduler's commands: INK_REFILL and DIE_DATE (R125, R127). -/

namespace Sys2Proof.Machine

/-- The arguments of INK_REFILL: a lane, a head and 0 to 1,000,000 units (R125). -/
def refillArgs : List Byte → Args (Lane × HeadId × Nat)
  | [l, h, u2, u1, u0] =>
    inRange do return (← laneOf l, ← headOf h, ← within 0 1000000 (beNat [u2, u1, u0]))
  | _ => .wrongLength

/-- A head is refilled: its units are replaced, and its INK inhibit is set or cleared by its ink cost
(R125). -/
def Head.refill (cost units : Nat) (h : Head) : Head := { h with units := units, ink := decide (units < cost) }

/-- INK_REFILL (R125). -/
def execInkRefill (s : State) : Result :=
  .next
    (s.completion 0x20 refillArgs fun s c a =>
      let x := s.head a.1 a.2.1
      if a.2.2 < x.reserved then s.complete c .badArgument []
      else (s.modHead a.1 a.2.1 (Head.refill (s.dieHead a.1 a.2.1).inkCost a.2.2)).complete c .done (beBytes 3 x.units))

/-- The arguments of DIE_DATE: a year 2000 to 2099, a month, a day and an hour (R127). -/
def dateArgs : List Byte → Args PostDate
  | [y1, y0, m, d, h] =>
    inRange do
      return {
        year := ← within 2000 2099 (beNat [y1, y0])
        month := ← within 1 12 m.toNat
        day := ← within 1 31 d.toNat
        hour := ← within 0 23 h.toNat }
  | _ => .wrongLength

/-- The days of a month (R127). -/
def daysOf (year month : Nat) : Nat :=
  match month with
  | 2 => if year % 4 = 0 then 29 else 28
  | 4 | 6 | 9 | 11 => 30
  | _ => 31

/-- DIE_DATE: a valid date replaces the postmark date and hour (R127). -/
def execDieDate (s : State) : Result :=
  .next
    (s.completion 0x21 dateArgs fun s c t =>
      if daysOf t.year t.month < t.day then s.complete c .badArgument [] else { s with date := some t }.done c)

end Sys2Proof.Machine
end

