-- ==== Sys2Proof/Machine/Monitors.lean ====
section
/-! DEFINITION. The Transport Monitor: windows, their judging, and the monitors (chapter 10). -/

namespace Sys2Proof.Machine

/-- A window started at a position with a fresh copy of the profile, every count 0 (R154). -/
def startWindow (pr : MonitorProfile) (at' : Pos) : Window :=
  { start := at', stop := advance at' pr.winLen, profile := pr, reject := 0, late := 0, shingle := 0
    reference := .all 0 }

/-- The lowest of the four band counts (R158). -/
def PerBand.least (c : PerBand Nat) : Nat := min (min c.aTop c.aBottom) (min c.bTop c.bBottom)

/-- The count a monitor is judged by (R155, R158). -/
def Window.judged (w : Window) : MonitorId → Nat
  | .reject => w.reject
  | .late => w.late
  | .shingle => w.shingle
  | .reference => w.reference.least

/-- The window is bad for a monitor (R156): over the limit, or for REFERENCE some band below it. -/
def Window.bad (w : Window) (m : MonitorId) : Bool :=
  let lim := (w.profile.monitors.get m).limit
  match m with
  | .reference => decide (w.judged .reference < lim)
  | m => decide (lim < w.judged m)

/-- A monitor after a window judged for it (R157). -/
def Monitor.judge (e : MonitorEntry) (bad : Bool) (x : Monitor) : Monitor :=
  if bad then
    let run := min (x.badRun + 1) 15
    if !x.declared && decide (e.declareN ≤ run) then { declared := true, badRun := 0, goodRun := 0 }
    else { x with badRun := run, goodRun := 0 }
  else
    let run := min (x.goodRun + 1) 15
    if x.declared && decide (e.clearM ≤ run) then { declared := false, badRun := 0, goodRun := 0 }
    else { x with badRun := 0, goodRun := run }

/-- The indication latch of a monitor (R158). -/
def MonitorId.latch : MonitorId → Latch
  | .reject => .monitorReject
  | .late => .monitorLate
  | .shingle => .monitorShingle
  | .reference => .monitorReference

/-- One monitor at a window end: judged when the window's copy enables it, and a change of its state
sets its latch and builds the MONITOR notice (R156 to R158). -/
def State.judgeMonitor (l : Lane) (w : Window) (s : State) (m : MonitorId) : State :=
  let e := w.profile.monitors.get m
  if e.enable then
    let old := (s.lane l).monitors.get m
    let new := old.judge e (w.bad m)
    let s1 := s.modLane l fun x => { x with monitors := x.monitors.set m new }
    if new.declared = old.declared then s1
    else
      (s1.setLatch m.latch).notice .monitor
        (.monitor l m new.declared w.stop (w.judged m) e.limit (if new.declared then e.declareN else e.clearM))
  else s

/-- The monitors of a lane are judged in the order REJECT, LATE, SHINGLE, REFERENCE (R158). -/
def State.judgeWindow (s : State) (l : Lane) (w : Window) : State :=
  [MonitorId.reject, .late, .shingle, .reference].foldl (State.judgeMonitor l w) s

/-- The next window starts at the previous one's end position while the lane has windows (R154): a
jam raised by the step's FEED frame has stopped them. -/
def State.nextWindow (s : State) (l : Lane) (from' : Pos) : State :=
  if (s.lane l).active then
    s.modLane l fun x => { x with window := some (startWindow s.store.tables.monitor from') }
  else s

/-- WINDOW_END (R154 to R159). -/
def execWindowEnd (l : Lane) (s : State) : Result :=
  match (s.lane l).window with
  | none => .next s
  | some w =>
    .next
      (if (s.lane l).active && reached (s.lane l).belt w.stop then
        ((s.judgeWindow l w).updateRate l).nextWindow l w.stop
      else s)

end Sys2Proof.Machine
end

