-- ==== Sys2Proof/Machine/LaneCommands.lean ====
section
/-! DEFINITION. The Lane Tracker's commands: LANE_START, LANE_STOP and JAM_CLEAR (R46, R47, R59). -/

namespace Sys2Proof.Machine

/-! ### LANE_START (R46) -/

/-- The tables to which a write is staged, programming or suspended, or nested (R46). -/
def Phase.writes : Phase → List Table
  | .ready => []
  | .staging w => [w.table]
  | .programming p _ | .suspended p => [p.table]
  | .nestedStaging p w => [p.table, w.table]
  | .nestedProgramming p q => [p.table, q.table]

/-- Some Ink Profile entry is enabled (R46). -/
def State.profileEnabled (s : State) : Bool := s.store.tables.profiles.toList.any Profile.enable

/-- A lane is ready to start (R46.3). -/
def State.readyToStart (s : State) (l : Lane) : Bool :=
  (s.geometry l).loaded && s.profileEnabled && !s.store.phase.writes.contains .ink
    && !s.store.phase.writes.contains .geometry

/-- The eye at a lane start (R46). -/
def eyeAtStart (coveredNow : Bool) (belt : Pos) : Eye := if coveredNow then .passing belt else .armed

/-- A head at a lane start from STOPPED: its free_pos is the belt position, its list empty and
nothing reserved (R115). -/
def Head.start (belt : Pos) (h : Head) : Head := { h with booking := [], reserved := 0, freePos := belt }

/-- A lane that is started from STOPPED (R46): forward mark, eye, high marks (R65), references (R66),
gate (R102), heads (R115) and the first window (R154). -/
def LaneS.start (g : Geometry) (pr : MonitorProfile) (x : LaneS) : LaneS :=
  { x with
    forwardMark := some x.belt
    eye := eyeAtStart x.eyeCovered x.belt
    highMarks := .all none
    refs := .all ⟨g.refSeedPH, g.refSeedFL⟩
    gate := { setting := .pass, freePos := x.belt }
    heads := ⟨x.heads.l.start x.belt, x.heads.t.start x.belt⟩
    window := some (startWindow pr x.belt) }

/-- A lane becomes RUNNING, and its feed rate is set; the LANE notice is built at the change of state
and so before the FEED frame, DEDUCED (log entry 8). -/
def State.run (s : State) (l : Lane) : State := (s.laneTo l .running).updateRate l

/-- LANE_START of a lane that passes the tests of readiness. -/
def State.startLane (s : State) (l : Lane) : State :=
  match (s.lane l).state with
  | .stopped => (s.modLane l (LaneS.start (s.geometry l) s.store.tables.monitor)).run l
  | .draining => s.run l
  | .running | .jammed => s

/-- LANE_START (R46). -/
def execLaneStart (s : State) : Result :=
  .next
    (s.completion 0x10 laneArg fun s c l =>
      match (s.lane l).state with
      | .jammed => s.complete c .wrongState []
      | .running => s.done c
      | .stopped | .draining => if s.readyToStart l then (s.startLane l).done c else s.complete c .notReady [])

/-! ### LANE_STOP (R47) -/

/-- A RUNNING lane is stopped: the batch is closed, the LANE notice built, the rate set to HOLD, and
an empty lane becomes STOPPED at once unless the FEED frame has jammed it (R47). -/
def State.stopLane (s : State) (l : Lane) : State := ((s.closeBatch.laneTo l .draining).updateRate l).drain l

/-- LANE_STOP (R47). -/
def execLaneStop (s : State) : Result :=
  .next
    (s.completion 0x11 laneArg fun s c l =>
      match (s.lane l).state with
      | .running => (s.stopLane l).done c
      | .stopped | .draining | .jammed => s.done c)

/-! ### JAM_CLEAR (R59) -/

/-- A JAMMED lane is cleared: its records are retired JAM_LOST and it becomes STOPPED (R59). -/
def State.clearJam (s : State) (l : Lane) : State := (s.retireAll l .jamClear).laneTo l .stopped

/-- JAM_CLEAR (R59). -/
def execJamClear (s : State) : Result :=
  .next
    (s.completion 0x12 laneArg fun s c l =>
      match (s.lane l).state with
      | .jammed => (s.clearJam l).done c
      | .stopped | .running | .draining => s.complete c .wrongState [])

end Sys2Proof.Machine
end

