-- ==== Sys2Proof/Machine/PocketCommands.lean ====
section
/-! DEFINITION. The Pocket Manager's commands: SWEEP_START and SWEEP_DONE (R140, R141). -/

namespace Sys2Proof.Machine

/-- The state a swept pocket enters (R140). -/
def Pocket.sweepState (k : Pocket) : PocketState := if k.inbound = 0 then .sweep else .sweepWait

/-- SWEEP_START (R140). -/
def execSweepStart (s : State) : Result :=
  .next
    (s.completion 0x28 pocketArgs fun s c a =>
      let k := s.pocket a.1 a.2
      match k.state with
      | .opened | .full =>
        (s.modPocket a.1 a.2 fun k => { k with state := k.sweepState }).complete c .done
          [byte k.sweepState.toNat, byte k.inbound]
      | .sweepWait | .sweep => s.complete c .wrongState [])

/-- A pocket's tray record (R141). -/
def Pocket.tray (l : Lane) (n : Fin 10) (k : Pocket) : Tray :=
  { lane := l, pocket := n, count := k.count, valueSum := k.valueSum, firstTag := k.firstTag, lastTag := k.lastTag }

/-- A pocket whose tray has been taken (R141). -/
def Pocket.emptied (k : Pocket) : Pocket :=
  { k with state := .opened, count := 0, valueSum := 0, firstTag := none, lastTag := none }

/-- SWEEP_DONE: the TRAY notice, the pocket emptied and OPEN, and the same tray record in the response
(R141). -/
def execSweepDone (s : State) : Result :=
  .next
    (s.completion 0x29 pocketArgs fun s c a =>
      let t := (s.pocket a.1 a.2).tray a.1 a.2
      match (s.pocket a.1 a.2).state with
      | .sweep => ((s.notice .tray (.tray t)).modPocket a.1 a.2 Pocket.emptied).complete c .done (trayBytes t)
      | .opened | .full | .sweepWait => s.complete c .wrongState [])

end Sys2Proof.Machine
end

