-- ==== Sys2Proof/Machine/Frame.lean ====
section
/-! DEFINITION. A received unit: the reception tests, its header, and whether it is addressed to the
part (R1 to R6). -/

namespace Sys2Proof.Machine

/-- A well-formed frame, as received (R1). -/
structure RxFrame where
  dest : Station
  src : Station
  kind : Byte
  payload : List Byte
  deriving DecidableEq, Repr

/-- What the reception tests say of a unit (R3). -/
inductive Reception where
  | formatError
  | checkError
  | wellFormed (f : RxFrame)
  deriving DecidableEq, Repr

/-- The reception tests in their order (R3): size, check, length. -/
def receive (unit : List Byte) : Reception :=
  if unit.length < 8 || 263 < unit.length then .formatError
  else if checkBytes (unit.take (unit.length - 2)) != unit.drop (unit.length - 2) then .checkError
  else
    match unit with
    | dl :: dp :: sl :: sp :: kind :: len :: rest =>
      if rest.length - 2 = len.toNat then
        .wellFormed { dest := ⟨dl, dp⟩, src := ⟨sl, sp⟩, kind := kind, payload := rest.take (rest.length - 2) }
      else .formatError
    | _ => .formatError

/-- The kind byte holds one of the six kind values (R4). -/
def knownKind (k : Byte) : Bool :=
  k == kindSample || k == kindCommand || k == kindResponse || k == kindNotice || k == kindAct || k == kindActStatus

/-- A destination byte matches a station byte: it is equal or the wildcard 0xFF (R5). -/
def byteMatches (dest station : Byte) : Bool := dest == station || dest == 0xFF

/-- A destination is addressed to the part (R5). -/
def addressed (k : Link) (d : Station) : Bool :=
  match k.mode with
  | .nothing => true
  | .line => byteMatches d.line k.station.line
  | .position => byteMatches d.position k.station.position
  | .both => byteMatches d.line k.station.line && byteMatches d.position k.station.position

/-- At least one compared byte of a destination is 0xFF (R5). -/
def wildcard (m : CompareMode) (d : Station) : Bool :=
  match m with
  | .nothing => false
  | .line => d.line == 0xFF
  | .position => d.position == 0xFF
  | .both => d.line == 0xFF || d.position == 0xFF

/-- A destination addressed to the part is a broadcast (R5). -/
def broadcast (k : Link) (d : Station) : Bool := addressed k d && wildcard k.mode d

/-- A lane's scan source equals a frame's source; a lane whose Lane Geometry record is not loaded
has no scan source (R7). -/
def scanSourceIs (g : Geometry) (src : Station) : Bool := g.loaded && g.scanSource == src

/-- A SAMPLE frame's source equals the scan source of a lane (R6). -/
def State.sampleFrom (s : State) (src : Station) : Bool :=
  scanSourceIs (s.geometry .a) src || scanSourceIs (s.geometry .b) src

/-- What the Link Port does with a well-formed frame (R6); `consumed` covers a broadcast too. -/
inductive Fate where
  | consumed
  | forwarded
  | dropped
  deriving DecidableEq, Repr

/-- The classification of a well-formed frame (R4, R6). -/
def State.classify (s : State) (f : RxFrame) : Fate :=
  if f.kind = kindSample then (if s.sampleFrom f.src then .consumed else .forwarded)
  else if f.kind = kindCommand || f.kind = kindActStatus then
    (if addressed s.link f.dest then .consumed else .forwarded)
  else if knownKind f.kind then .forwarded
  else if addressed s.link f.dest then .dropped
  else .forwarded

/-- The unit is a well-formed frame of a kind: what it holds. -/
def frameOfKind (kind : Byte) (unit : List Byte) : Option RxFrame :=
  match receive unit with
  | .wellFormed f => if f.kind = kind then some f else none
  | _ => none

end Sys2Proof.Machine
end

