-- ==== Sys2Proof/Machine/Reception.lean ====
section
/-! DEFINITION. The Link Port's receiving side, and the steps of the units it consumes: SAMPLE
frames (R7, R62 to R69), COMMAND frames (R6, R18) and ACT_STATUS frames (R8, R124). -/

namespace Sys2Proof.Machine

/-! ### Link counters (R14) -/

/-- The part with its link counters changed. -/
def State.countLink (s : State) (f : LinkCounters → LinkCounters) : State :=
  { s with link := { s.link with counters := f s.link.counters } }

/-- FORMAT_ERRORS +1. -/
def State.formatError (s : State) : State :=
  s.countLink fun c => { c with formatErrors := satInc Config.max16 c.formatErrors }

/-- CHECK_ERRORS +1. -/
def State.checkError (s : State) : State :=
  s.countLink fun c => { c with checkErrors := satInc Config.max16 c.checkErrors }

/-- KIND_UNKNOWN +1. -/
def State.unknownKind (s : State) : State :=
  s.countLink fun c => { c with kindUnknown := satInc Config.max16 c.kindUnknown }

/-- UNIT_RECEIVED: a unit fails a reception test and is dropped, or is forwarded, or is dropped for
its unknown kind (R3, R4, R6). A frame the part consumes is handled whole by the step of its kind,
and this step then changes nothing: DESIGN CHOICE, safe (log entry 1). -/
def execUnitReceived (unit : List Byte) (s : State) : Result :=
  .next
    (match receive unit with
    | .formatError => s.formatError
    | .checkError => s.checkError
    | .wellFormed f =>
      match s.classify f with
      | .consumed => s
      | .forwarded => s.offer unit
      | .dropped => s.unknownKind)

/-- A consumed frame's own effect, and for a broadcast the offer of its forwarded copy, the two in
either order (R6; log entry 3). -/
def State.consume (s : State) (unit : List Byte) (dest : Station) (effect : State → State) : State :=
  if broadcast s.link dest then s.inEitherOrder (fun s => s.offer unit) effect else effect s

/-! ### SAMPLE frames -/

/-- A SAMPLE payload that has passed the shape test (R7); values as carried, before the clamp. -/
structure SampleRun where
  band : Band
  first : Pos
  samples : List Sample
  deriving DecidableEq, Repr

/-- The samples that bytes spell, four bytes each (12.1). -/
def readSamples : List Byte → List Sample
  | a :: b :: c :: d :: rest => ⟨beNat [a, b], beNat [c, d]⟩ :: readSamples rest
  | _ => []

/-- The shape test of a SAMPLE payload (R7). -/
def parseSamples (payload : List Byte) : Option SampleRun :=
  match payload with
  | b :: p2 :: p1 :: p0 :: n :: rest =>
    match bandOf b with
    | some band =>
      if 1 ≤ n.toNat ∧ n.toNat ≤ 60 ∧ rest.length = 4 * n.toNat then
        some { band := band, first := BitVec.ofNat 24 (beNat [p2, p1, p0]), samples := readSamples rest }
      else none
    | none => none
  | _ => none

/-- A value above 4,095 is taken as 4,095 (R62.2). -/
def clampSample (x : Sample) : Sample := { ph := min x.ph 4095, fl := min x.fl 4095 }

/-- Position `q` lies in the guarded span of a record (R67). -/
def guarded (g : Geometry) (p : Piece) (q : Pos) : Bool :=
  let a := p.lead - BitVec.ofNat 24 g.refGuard
  match p.length with
  | some n => (q - a).toNat < (advance (trailing p n) g.refGuard - a).toNat
  | none => reached q a

/-- A filed sample is a gap sample: no record of the list guards its position (R67). -/
def LaneS.gapSample (g : Geometry) (x : LaneS) (q : Pos) : Bool := !x.list.any fun p => guarded g p q

/-- A reference after a gap sample's value: ref + floor((x − ref) / 16) (R68). -/
def moveRef (ref x : Nat) : Nat := ((ref : Int) + ((x : Int) - (ref : Int)) / 16).toNat

/-- Both references of a band after a gap sample (R68). -/
def Refs.move (r : Refs) (x : Sample) : Refs := { ph := moveRef r.ph x.ph, fl := moveRef r.fl x.fl }

/-- A high mark after a sample is filed (R65). -/
def moveMark (mark : Option Pos) (q : Pos) : Option Pos :=
  match mark with
  | none => some q
  | some h => if beyond q h then some q else some h

/-- A sample is filed into its band's ring and moves the high mark (R63, R65). -/
def LaneS.file (b : Band) (q : Pos) (x : Sample) (ln : LaneS) : LaneS :=
  { ln with
    rings := ln.rings.set b (Ring.file (ln.rings.get b) q x)
    highMarks := ln.highMarks.set b (moveMark (ln.highMarks.get b) q) }

/-- A gap sample moves both references of its band and is counted once as a reference update
(R68, R155). -/
def State.updateRefs (s : State) (l : Lane) (b : Band) (x : Sample) : State :=
  (s.modLane l fun ln => { ln with refs := ln.refs.set b ((ln.refs.get b).move x) }).countWindow l fun w =>
    { w with reference := w.reference.set b (satInc Config.max16 (w.reference.get b)) }

/-- One sample of a RUNNING or DRAINING lane (R62): range, clamp, file, reference, readiness. -/
def State.takeSample (s : State) (l : Lane) (b : Band) (q : Pos) (raw : Sample) : State :=
  if Config.sampleAhead < signedDistance q (s.lane l).belt then
    s.count l fun c => { c with sampleRange := satInc Config.max32 c.sampleRange }
  else
    let x := clampSample raw
    let s1 := s.modLane l (LaneS.file b q x)
    let s2 := if (s.lane l).gapSample (s.geometry l) q then s1.updateRefs l b x else s1
    s2.askReady l

/-- The samples of a frame in payload order, two steps apart (R62). -/
def State.takeSamples (s : State) (l : Lane) (b : Band) : Pos → List Sample → State
  | _, [] => s
  | q, x :: xs => (s.takeSample l b q x).takeSamples l b (q + 2) xs

/-- A SAMPLE frame delivered to one lane: discarded whole when it is STOPPED or JAMMED (R62). -/
def State.deliverSamples (s : State) (l : Lane) (r : SampleRun) : State :=
  if (s.lane l).active then s.takeSamples l r.band r.first r.samples else s

/-- A shape-tested SAMPLE frame delivered to each lane whose scan source it matched (R7); where it
matched both, the order of the two lanes is left open (log entry 3). -/
def State.deliverToLanes (s : State) (src : Station) (r : SampleRun) : State :=
  match scanSourceIs (s.geometry .a) src, scanSourceIs (s.geometry .b) src with
  | true, true => s.inEitherOrder (fun s => s.deliverSamples .a r) (fun s => s.deliverSamples .b r)
  | true, false => s.deliverSamples .a r
  | false, true => s.deliverSamples .b r
  | false, false => s

/-- SAMPLE_FRAME: a well-formed SAMPLE frame from a lane's scan source (R7, R62). -/
def execSampleFrame (unit : List Byte) (s : State) : Result :=
  match frameOfKind kindSample unit with
  | none => .next s
  | some f =>
    .next
      (if s.sampleFrom f.src then
        match parseSamples f.payload with
        | some r => s.deliverToLanes f.src r
        | none => s.formatError
      else s)

/-! ### COMMAND frames -/

/-- A command is accepted: it joins the command queue, and a slot is reserved for its response
(R18). -/
def State.accept (s : State) (c : Cmd) : State :=
  { s with
    interp := { s.interp with queue := s.interp.queue ++ [c] }
    reports := { s.reports with reserved := s.reports.reserved + 1 } }

/-- The test of acceptance (R18). -/
def State.canAccept (s : State) : Bool := decide (s.interp.queue.length < Config.commandDepth) && s.slotFree

/-- A command is accepted, or refused with a REFUSED notice to its sender, which the mask does not
touch (R10, R18, R24). -/
def State.acceptOrRefuse (s : State) (c : Cmd) : State :=
  if s.canAccept then s.accept c else s.postNotice c.src (.refused c.code c.number)

/-- A consumed COMMAND frame: a payload shorter than 2 bytes is a format error; otherwise the
controller address takes the frame's source, and the command is accepted or refused (R6, R10). -/
def State.takeCommand (s : State) (f : RxFrame) : State :=
  match f.payload with
  | code :: number :: args =>
    { s with link := { s.link with controller := f.src } }.acceptOrRefuse
      { src := f.src, code := code, number := number, args := args }
  | _ => s.formatError

/-- COMMAND_FRAME: a well-formed COMMAND frame addressed to the part (R6, R18). -/
def execCommandFrame (unit : List Byte) (s : State) : Result :=
  match frameOfKind kindCommand unit with
  | none => .next s
  | some f =>
    .next (if addressed s.link f.dest then s.consume unit f.dest (fun s => s.takeCommand f) else s)

/-! ### ACT_STATUS frames -/

/-- What an ACT_STATUS frame reports: a head's condition, or that of another actuator of a lane
(R8). -/
inductive ActReport where
  | head (lane : Lane) (head : HeadId) (fault : Bool)
  | other (lane : Lane) (fault : Bool)
  deriving DecidableEq, Repr

/-- The payload test of an ACT_STATUS frame (R8, 12.1). -/
def parseActStatus (payload : List Byte) : Option ActReport :=
  match payload with
  | [l, a, c] =>
    match laneOf l, switchOf c with
    | some lane, some fault =>
      match a.toNat with
      | 0 | 1 | 2 | 3 => some (.other lane fault)
      | 4 => some (.head lane .l fault)
      | 5 => some (.head lane .t fault)
      | _ => none
    | _, _ => none
  | _ => none

/-- A head report (R124): a change of the FAULT inhibit builds a HEAD notice. -/
def State.headReport (s : State) (l : Lane) (h : HeadId) (fault : Bool) : State :=
  if (s.head l h).fault = fault then s
  else
    (s.modHead l h fun x => { x with fault := fault }).notice .head
      (.head l h fault (s.head l h).booking.length)

/-- A valid ACT_STATUS frame delivered by its actuator (R8): a FAULT of an actuator other than a
head is the jam cause ACTUATOR_FAULT, an OK has no effect (R57). -/
def State.actReport (s : State) : ActReport → State
  | .head l h fault => s.headReport l h fault
  | .other l fault => if fault then s.jamCause l .actuatorFault else s

/-- A consumed ACT_STATUS frame: payload-tested, then delivered (R8). -/
def State.takeActStatus (s : State) (f : RxFrame) : State :=
  match parseActStatus f.payload with
  | some r => s.actReport r
  | none => s.formatError

/-- ACT_STATUS_FRAME: a well-formed ACT_STATUS frame addressed to the part (R6, R8). -/
def execActStatusFrame (unit : List Byte) (s : State) : Result :=
  match frameOfKind kindActStatus unit with
  | none => .next s
  | some f =>
    .next (if addressed s.link f.dest then s.consume unit f.dest (fun s => s.takeActStatus f) else s)

/-! ### The end of a transmission -/

/-- TRANSMISSION_END: the link becomes free and the arbiter grants again (R12, R13). -/
def execTransmissionEnd (s : State) : Result :=
  .next
    (match s.link.sending with
    | none => s
    | some _ => { s with link := { s.link with sending := none } }.arbitrate)

end Sys2Proof.Machine
end

