-- ==== Sys2Proof/Machine/LinkCommands.lean ====
section
/-! DEFINITION. The Link Port's commands: LINK_ADDRESS and LINK_COUNTERS_CLEAR (R15, R16). -/

namespace Sys2Proof.Machine

/-- A station byte is 0 to 254 (R1, R15). -/
def stationByte (b : Byte) : Option Byte := if b = 0xFF#8 then none else some b

/-- The arguments of LINK_ADDRESS (R15, 12.2). -/
def addressArgs : List Byte → Args (Station × CompareMode)
  | [l, p, m] => inRange do return (⟨← stationByte l, ← stationByte p⟩, ← modeOf m)
  | _ => .wrongLength

/-- LINK_ADDRESS: the station address and compare mode are replaced, and the response already carries
the new address (R15). -/
def execLinkAddress (s : State) : Result :=
  .next
    (s.completion 0x01 addressArgs fun s c a =>
      { s with link := { s.link with station := a.1, mode := a.2 } }.done c)

/-- A selection of bits in one byte, of which the low `n` are used (R174, R175). -/
def selection (n : Nat) (bs : List Byte) : Option Nat := if beNat bs < 2 ^ n then some (beNat bs) else none

/-- The four link counters in the order of R14, two bytes each (12.2). -/
def LinkCounters.bytes (k : LinkCounters) : List Byte :=
  beBytes 2 k.checkErrors ++ beBytes 2 k.formatErrors ++ beBytes 2 k.kindUnknown ++ beBytes 2 k.passDrops

/-- The chosen counters become 0 (R16). -/
def LinkCounters.cleared (sel : Nat) (k : LinkCounters) : LinkCounters :=
  { checkErrors := if sel.testBit 0 then 0 else k.checkErrors
    formatErrors := if sel.testBit 1 then 0 else k.formatErrors
    kindUnknown := if sel.testBit 2 then 0 else k.kindUnknown
    passDrops := if sel.testBit 3 then 0 else k.passDrops }

/-- The argument of LINK_COUNTERS_CLEAR (R16, 12.2). -/
def countersArg : List Byte → Args Nat
  | [b] => inRange (selection 4 [b])
  | _ => .wrongLength

/-- LINK_COUNTERS_CLEAR: the values as they stood are answered and the chosen counters become 0
(R16). -/
def execLinkCountersClear (s : State) : Result :=
  .next
    (s.completion 0x02 countersArg fun s c sel =>
      { s with link := { s.link with counters := s.link.counters.cleared sel } }.complete c .done s.link.counters.bytes)

end Sys2Proof.Machine
end

