-- ==== Sys2Proof/Machine/ReportCommands.lean ====
section
/-! DEFINITION. The commands of chapter 2: STATUS_READ, LANE_TRACK_READ, NOTICE_MASK, PIECE_REPORT,
REPORT_FLUSH and CLEAR_INDICATIONS. -/

namespace Sys2Proof.Machine

/-! ### STATUS_READ (R32) -/

/-- Store states by their number (R162). -/
def Phase.toNat : Phase → Nat
  | .ready => 0
  | .staging _ => 1
  | .programming _ _ => 2
  | .suspended _ => 3
  | .nestedStaging _ _ => 4
  | .nestedProgramming _ _ => 5

/-- The write whose table and figures are reported (R168). -/
def Phase.reported : Phase → Option Programming
  | .ready | .staging _ => none
  | .programming p _ | .suspended p | .nestedStaging p _ | .nestedProgramming _ p => some p

/-- One lane's four bytes of the status block. -/
def LaneS.statusBytes (x : LaneS) : List Byte :=
  [byte x.state.toNat, byte x.eye.toNat, byte x.list.length, byte x.feedRate.toNat]

/-- The store's five bytes of the status block. No table is being programmed in READY and STAGING:
the absent table reads 0xFF, DEDUCED (log entry 5). -/
def Store.statusBytes (k : Store) : List Byte :=
  let w := k.phase.reported
  [byte k.phase.toNat, byte k.flags.toNat, optByte (w.map fun p => p.table.toNat), byte ((w.map Programming.applied).getD 0),
    byte ((w.map Programming.total).getD 0)]

/-- The four monitor states of a lane, one bit each, DECLARED 1. -/
def LaneS.monitorBits (x : LaneS) : Byte :=
  byte
    (bitsByte
      [x.monitors.reject.declared, x.monitors.late.declared, x.monitors.shingle.declared, x.monitors.reference.declared])

/-- One head's seven bytes of the status block: the inhibits FAULT, DIE and INK, units, reserved
(R116). -/
def Head.statusBytes (die : Bool) (h : Head) : List Byte :=
  byte (bitsByte [h.fault, die, h.ink]) :: beBytes 3 h.units ++ beBytes 3 h.reserved

/-- The ten pocket states of a lane. -/
def LaneS.pocketBytes (x : LaneS) : List Byte := x.pockets.toList.map fun k => byte k.state.toNat

/-- The Link Port's thirteen bytes of the status block. -/
def Link.statusBytes (k : Link) : List Byte :=
  stationBytes k.station ++ [byte k.mode.toNat] ++ stationBytes k.controller ++ k.counters.bytes

/-- The status block, 88 bytes (R32, 12.2). The command's own slot is counted as reserved. -/
def State.statusBlock (s : State) : List Byte :=
  let a := s.lane .a
  let b := s.lane .b
  let die := !s.dieComplete
  a.statusBytes ++ b.statusBytes ++ s.store.statusBytes ++ [a.monitorBits, b.monitorBits]
    ++ a.heads.l.statusBytes die ++ a.heads.t.statusBytes die ++ b.heads.l.statusBytes die ++ b.heads.t.statusBytes die
    ++ a.pocketBytes ++ b.pocketBytes ++ s.link.statusBytes
    ++ [byte s.reports.mask.toNat, byte s.reports.batchLevel, byte s.reports.batch.length]
    ++ beBytes 2 s.reports.nextSerial.toNat
    ++ [byte s.reports.queued.length, byte s.reports.reserved, byte s.interp.queue.length]
    ++ beBytes 2 s.reports.latches.toNat ++ beBytes 2 s.reports.noticeLost

/-- STATUS_READ (R32). -/
def execStatusRead (s : State) : Result :=
  .next (s.completion 0x03 noArgs fun s c _ => s.complete c .done s.statusBlock)

/-! ### LANE_TRACK_READ (R33) -/

/-- The arguments of LANE_TRACK_READ: a lane, an index of 0 to 23 and a count of 1 to 4. -/
def trackArgs : List Byte → Args (Lane × Nat × Nat)
  | [l, i, n] => inRange do return (← laneOf l, ← within 0 23 i.toNat, ← within 1 4 n.toNat)
  | _ => .wrongLength

/-- The records at positions index to index + count − 1 that exist (R33). -/
def LaneS.recordsFrom (x : LaneS) (index count : Nat) : List Piece := (x.list.drop index).take count

/-- The result data of LANE_TRACK_READ (12.2). -/
def State.trackData (s : State) (l : Lane) (index count : Nat) : List Byte :=
  let ps := (s.lane l).recordsFrom index count
  [byte (laneNat l), byte index, byte ps.length] ++ (ps.map trackRecord).flatten

/-- LANE_TRACK_READ (R33). -/
def execLaneTrackRead (s : State) : Result :=
  .next (s.completion 0x04 trackArgs fun s c a => s.complete c .done (s.trackData a.1 a.2.1 a.2.2))

/-! ### Mask and batch -/

/-- The argument of NOTICE_MASK: eight settings in one byte (R25). -/
def maskArg : List Byte → Args (BitVec 8)
  | [m] => .valid m
  | _ => .wrongLength

/-- The PIECE setting of a mask (R25). -/
def pieceOn (mask : BitVec 8) : Bool := mask.getLsbD NoticeClass.piece.bit

/-- The open batch is closed, while piece reporting is still on, when a command turns it off
(R25, R27.1). -/
def State.closeWhenOff (s : State) (on : Bool) : State := if s.pieceReporting && !on then s.closeBatch else s

/-- The mask takes the given settings (R25). -/
def State.setMask (s : State) (mask : BitVec 8) : State := { s with reports := { s.reports with mask := mask } }

/-- NOTICE_MASK: the batch is closed when PIECE goes off, the mask changes, and the previous mask is
answered (R25). -/
def execNoticeMask (s : State) : Result :=
  .next
    (s.completion 0x05 maskArg fun s c m =>
      ((s.closeWhenOff (pieceOn m)).setMask m).complete c .done [s.reports.mask])

/-- The arguments of PIECE_REPORT: a switch and a batch_level of 1 to 8 (R27). -/
def pieceReportArgs : List Byte → Args (Bool × Nat)
  | [sw, n] => inRange do return (← switchOf sw, ← within 1 8 n.toNat)
  | _ => .wrongLength

/-- A mask with its PIECE setting written. -/
def withPiece (on : Bool) (mask : BitVec 8) : BitVec 8 := if on then mask ||| 0x80#8 else mask &&& 0x7F#8

/-- Piece reporting and batch_level take their values (R27.2). -/
def State.setPieceReport (s : State) (on : Bool) (level : Nat) : State :=
  { s with reports := { s.reports with mask := withPiece on s.reports.mask, batchLevel := level } }

/-- A batch that already holds batch_level records is closed (R27.3). -/
def State.closeWhenFull (s : State) : State :=
  if s.pieceReporting && decide (s.reports.batchLevel ≤ s.reports.batch.length) then s.closeBatch else s

/-- PIECE_REPORT (R27). -/
def execPieceReport (s : State) : Result :=
  .next
    (s.completion 0x06 pieceReportArgs fun s c a =>
      (((s.closeWhenOff a.1).setPieceReport a.1 a.2).closeWhenFull).done c)

/-- REPORT_FLUSH: the open batch is closed if it holds records (R27). -/
def execReportFlush (s : State) : Result := .next (s.completion 0x07 noArgs fun s c _ => s.closeBatch.done c)

/-! ### CLEAR_INDICATIONS (R30) -/

/-- The argument of CLEAR_INDICATIONS: a selection of the eleven latches in two bytes. -/
def latchesArg : List Byte → Args Nat
  | [h, l] => inRange (selection 11 [h, l])
  | _ => .wrongLength

/-- The chosen latches become clear, and NOTICE_LOST becomes 0 with its latch (R30). -/
def Reports.clearIndications (sel : Nat) (r : Reports) : Reports :=
  { r with
    latches := r.latches &&& ~~~BitVec.ofNat 11 sel
    noticeLost := if sel.testBit Latch.noticeLost.bit then 0 else r.noticeLost }

/-- CLEAR_INDICATIONS: the latches and NOTICE_LOST as they stood are answered, and the chosen ones
become clear (R30). -/
def execClearIndications (s : State) : Result :=
  .next
    (s.completion 0x08 latchesArg fun s c sel =>
      { s with reports := s.reports.clearIndications sel }.complete c .done
        (beBytes 2 s.reports.latches.toNat ++ beBytes 2 s.reports.noticeLost))

end Sys2Proof.Machine
end

