-- ==== Sys2Proof/Machine/Entries.lean ====
section
/-! DEFINITION. Staged entries: how their bytes are read at the commit, their ranges and cross-checks
(R39, R82, R83, R92, R126, R131, R153, R167), their keys, and the size of each. -/

namespace Sys2Proof.Machine

/-- The size of an entry of a table, its table byte included (12.4). -/
def Table.entrySize : Table → Nat
  | .ink => 11
  | .signature => 9
  | .geometry => 44
  | .stacker => 8
  | .monitor => 6
  | .die => 29

/-- Unused bytes that are not as the layout gives them: the spec does not say whether the commit
accepts the entry, a free choice (log entry 4). -/
def unusedOk (expected : Byte) (unused entry : List Byte) : Bool :=
  unused.all (fun b => b == expected) || Config.acceptStrayBytes entry

/-- An option kept under a condition. -/
def keepIf {α : Type} (b : Bool) (x : α) : Option α := if b then some x else none

/-! ### Ink Profile (R82, R83) -/

/-- A profile's fields within their ranges, with score_min ≤ score_max and run_min ≤ run_max. -/
def readProfile (n : Fin 8) : List Byte → Option Entry
  | [en, ch, kd, s1, s0, t1, t0, rmin, rmax] => do
    let p : Profile :=
      { enable := ← switchOf en, channel := ← channelOf ch, kind := ← kindOf kd
        scoreMin := beNat [s1, s0], scoreMax := beNat [t1, t0]
        runMin := ← within 0 200 rmin.toNat, runMax := ← within 0 200 rmax.toNat }
    keepIf (decide (p.scoreMin ≤ p.scoreMax ∧ p.runMin ≤ p.runMax)) (.profile n p)
  | _ => none

/-- The channel record's fields within their ranges. -/
def readChannels : List Byte → Option Entry
  | [a1, a0, b1, b0, c1, c0, d1, d0, u] => do
    let c : ChannelRecord :=
      { floorPH := ← within 0 1023 (beNat [a1, a0]), floorFL := ← within 0 1023 (beNat [b1, b0])
        runLevelPH := ← within 1 4095 (beNat [c1, c0]), runLevelFL := ← within 1 4095 (beNat [d1, d0]) }
    keepIf (unusedOk 0 [u] [8, a1, a0, b1, b0, c1, c0, d1, d0, u]) (.channels c)
  | _ => none

/-- An Ink Profile entry: entry numbers 0 to 7 are profiles, 8 the channel record. -/
def readInk : List Byte → Option Entry
  | n :: rest => if h : n.toNat < 8 then readProfile ⟨n.toNat, h⟩ rest else if n.toNat = 8 then readChannels rest else none
  | [] => none

/-! ### Signature (R92) -/

/-- A signature key within its ranges. -/
def readKey (p w b : Byte) : Option SigKey := do
  return { profile := ← below 8 p.toNat, width := ← below 32 w.toNat, band := ← below 64 b.toNat }

/-- A category that an entry can hold: 0 to 62. -/
def readCategory (c : Byte) : Option (Fin 64) := if c.toNat ≤ 62 then below 64 c.toNat else none

/-- A PUT or a DROP; a DROP carries 0 after its key. -/
def readSignature : List Byte → Option Entry
  | [op, p, w, b, c, v1, v0, pre] =>
    match op.toNat with
    | 0 => do
      return .put { key := ← readKey p w b, category := ← readCategory c, value := beNat [v1, v0], precancel := ← switchOf pre }
    | 1 => do keepIf (unusedOk 0 [c, v1, v0, pre] [op, p, w, b, c, v1, v0, pre]) (.drop (← readKey p w b))
    | _ => none
  | _ => none

/-! ### Lane Geometry (R38, R39) -/

/-- The two-byte numbers that bytes spell. -/
def words : List Byte → List Nat
  | a :: b :: rest => beNat [a, b] :: words rest
  | _ => []

/-- A Lane Geometry record from its scan source and its twenty other fields in the order of R38. -/
def geometryOf (src : Station) : List Nat → Option Geometry
  | [minLen, maxLen, minGap, maxCovered, sampleWait, cornerLen, seedPH, seedFL, refGuard, dDecide, dGate, gateSettle,
      dHeadL, dHeadT, leadIn, strikeLen, recoverLen, dPocket, dStack, reverseLimit] =>
    some
      { loaded := true, scanSource := src, minLen := minLen, maxLen := maxLen, minGap := minGap, maxCovered := maxCovered
        sampleWait := sampleWait, cornerLen := cornerLen, refSeedPH := seedPH, refSeedFL := seedFL, refGuard := refGuard
        dDecide := dDecide, dGate := dGate, gateSettle := gateSettle, dHeadL := dHeadL, dHeadT := dHeadT, leadIn := leadIn
        strikeLen := strikeLen, recoverLen := recoverLen, dPocket := dPocket, dStack := dStack
        reverseLimit := reverseLimit }
  | _ => none

/-- A number lies within a range, both ends included. -/
def inside (low high n : Nat) : Bool := decide (low ≤ n ∧ n ≤ high)

/-- Every field of a Lane Geometry record lies within its range (R38). A scan source byte of 0xFF is
out of range, as no station holds one (R1): DEDUCED (log entry 10). -/
def Geometry.ranges (g : Geometry) : Bool :=
  g.scanSource.line != 0xFF && g.scanSource.position != 0xFF
    && inside 200 1000 g.minLen && inside 400 2000 g.maxLen && inside 50 1000 g.minGap && inside 600 8000 g.maxCovered
    && inside 20 1000 g.sampleWait && inside 40 400 g.cornerLen && g.cornerLen % 2 == 0 && inside 0 4095 g.refSeedPH
    && inside 0 4095 g.refSeedFL && inside 0 200 g.refGuard && inside 1000 20000 g.dDecide && inside 1200 22000 g.dGate
    && inside 0 2000 g.gateSettle && inside 1500 28000 g.dHeadL && inside 1500 28000 g.dHeadT && inside 0 200 g.leadIn
    && inside 100 1500 g.strikeLen && inside 0 1000 g.recoverLen && inside 0 32000 g.dPocket && inside 0 32000 g.dStack
    && inside 0 2000 g.reverseLimit

/-- The cross-checks among the fields of a Lane Geometry entry (R39). -/
def Geometry.crossChecks (g : Geometry) : Bool :=
  decide
    (g.minLen < g.maxLen ∧ g.maxLen < g.maxCovered ∧ g.maxLen + g.sampleWait + 100 ≤ g.dDecide
      ∧ g.dDecide + g.gateSettle + 200 ≤ g.dGate ∧ g.dGate < g.dHeadL ∧ g.dGate < g.dHeadT
      ∧ max g.dHeadL g.dHeadT + g.maxLen ≤ g.dPocket ∧ g.dPocket + 100 ≤ g.dStack ∧ g.cornerLen ≤ g.minLen)

/-- A Lane Geometry entry. -/
def readGeometry : List Byte → Option Entry
  | l :: sl :: sp :: rest => do
    let lane ← laneOf l
    let g ← geometryOf ⟨sl, sp⟩ (words rest)
    keepIf (g.ranges && g.crossChecks) (.geometry lane g)
  | _ => none

/-! ### Stacker Map (R131) -/

/-- A pocket lies in the bank of a route's stream (R131): routes 0 to 3 are stream L's, 4 to 7 stream
T's, 8 stream X's. -/
def inBank (r : Fin 9) (k : Fin 10) : Bool :=
  if r.val < 4 then decide (k.val < 4) else if r.val < 8 then decide (4 ≤ k.val ∧ k.val < 8) else decide (8 ≤ k.val)

/-- A route's list: 1 to 4 distinct pockets of its bank, the unused places 0xFF. -/
def readRoute (lane : Lane) (r : Fin 9) : List Byte → Option Entry
  | [n, p1, p2, p3, p4] => do
    let len ← within 1 4 n.toNat
    let ps ← ([p1, p2, p3, p4].take len).mapM fun b => below 10 b.toNat
    keepIf (ps.all (inBank r) && decide ps.Nodup && unusedOk 0xFF ([p1, p2, p3, p4].drop len) [n, p1, p2, p3, p4])
      (.route lane r ps)
  | _ => none

/-- A level pair: full_level 1 to 2,000, hard_level full_level to 2,500 and not below the pocket's
count + inbound as they stand. -/
def State.readLevels (s : State) (lane : Lane) (k : Fin 10) : List Byte → Option Entry
  | [f1, f0, h1, h0, u] => do
    let full ← within 1 2000 (beNat [f1, f0])
    let hard ← within full 2500 (beNat [h1, h0])
    let x := s.pocket lane k
    keepIf (decide (x.count + x.inbound ≤ hard) && unusedOk 0 [u] [f1, f0, h1, h0, u]) (.levels lane k ⟨full, hard⟩)
  | _ => none

/-- A Stacker Map entry: items 0 to 8 are routes, 9 to 18 the pockets' level pairs. -/
def State.readStacker (s : State) : List Byte → Option Entry
  | l :: item :: rest => do
    let lane ← laneOf l
    if h : item.toNat < 9 then readRoute lane ⟨item.toNat, h⟩ rest
    else s.readLevels lane (← below 10 (item.toNat - 9)) rest
  | _ => none

/-! ### Monitor Profile (R153) -/

/-- The monitors by their item. -/
def monitorOf (item : Byte) : Option MonitorId :=
  match item.toNat with
  | 1 => some .reject
  | 2 => some .late
  | 3 => some .shingle
  | 4 => some .reference
  | _ => none

/-- A Monitor Profile entry: item 0 is the window, 1 to 4 the monitors. -/
def readMonitor : List Byte → Option Entry
  | [item, a, b, c, d] =>
    if item.toNat = 0 then do
      keepIf (unusedOk 0 [c, d] [item, a, b, c, d]) (.window (← within 1000 60000 (beNat [a, b])))
    else do
      return .monitor (← monitorOf item)
        { enable := ← switchOf a, limit := b.toNat, declareN := ← within 1 15 c.toNat, clearM := ← within 1 15 d.toNat }
  | _ => none

/-! ### Die (R126, R176) -/

/-- Every byte is a space or a printing character (R126, R176). -/
def printing (bs : List Byte) : Bool := bs.all fun b => decide (0x20 ≤ b.toNat ∧ b.toNat ≤ 0x7E)

/-- The Die common record: office code 6, office name 20, line number. -/
def readDieCommon (bs : List Byte) : Option Entry := do
  let line ← within 0 99 (beNat (bs.drop 26))
  keepIf (printing (bs.take 26))
    (.dieCommon { officeCode := bs.take 6, officeName := (bs.drop 6).take 20, lineNumber := line, loaded := true })

/-- A Die head record: text 16, ink cost, ink_low, seven unused bytes. -/
def readDieHead (lane : Lane) (head : HeadId) (bs : List Byte) : Option Entry := do
  let cost ← within 1 255 (beNat ((bs.drop 16).take 1))
  let low ← within 0 1000000 (beNat ((bs.drop 17).take 3))
  keepIf (printing (bs.take 16) && unusedOk 0 (bs.drop 20) bs)
    (.dieHead lane head { text := bs.take 16, inkCost := cost, inkLow := low })

/-- A Die entry: item 0 is the common record, 1 to 4 the heads A-L, A-T, B-L, B-T. -/
def readDie : List Byte → Option Entry
  | item :: rest =>
    match item.toNat with
    | 0 => readDieCommon rest
    | 1 => readDieHead .a .l rest
    | 2 => readDieHead .a .t rest
    | 3 => readDieHead .b .l rest
    | 4 => readDieHead .b .t rest
    | _ => none
  | [] => none

/-! ### Any entry -/

/-- A staged entry of a table, given without its table byte: read when every field lies within its
range and every cross-check holds (check 2 of R167). -/
def State.readEntry (s : State) (t : Table) (bs : List Byte) : Option Entry :=
  match t with
  | .ink => readInk bs
  | .signature => readSignature bs
  | .geometry => readGeometry bs
  | .stacker => s.readStacker bs
  | .monitor => readMonitor bs
  | .die => readDie bs

/-- The key of an entry within its table (R161); a PUT and a DROP of one signature key share it. -/
inductive EntryKey where
  | number (n : Nat)
  | signature (k : SigKey)
  | laned (l : Lane) (n : Nat)
  deriving DecidableEq, Repr

/-- The key of an entry (R161). -/
def Entry.key : Entry → EntryKey
  | .profile n _ => .number n.val
  | .channels _ => .number 8
  | .put e => .signature e.key
  | .drop k => .signature k
  | .geometry l _ => .laned l 0
  | .route l r _ => .laned l r.val
  | .levels l k _ => .laned l (9 + k.val)
  | .window _ => .number 0
  | .monitor m _ => .number (m.toNat + 1)
  | .dieCommon _ => .number 0
  | .dieHead l h _ => .number (1 + 2 * laneNat l + headNat h)

end Sys2Proof.Machine
end

