-- ==== Sys2Proof/Machine/Programming.lean ====
section
/-! DEFINITION. The application of staged entries (R93, R132, R168, R169). -/

namespace Sys2Proof.Machine

/-! ### The Signature Table (R92, R93) -/

/-- Place of a signature key in key order: by profile, width class and score band (R92). -/
def SigKey.rank (k : SigKey) : Nat := (k.profile.val * 32 + k.width.val) * 64 + k.band.val

/-- A PUT: the entry of its key is replaced, or the entry is inserted where its key belongs (R93). -/
def putSignature (e : SigEntry) : List SigEntry → List SigEntry
  | [] => [e]
  | d :: ds =>
    if e.key = d.key then e :: ds
    else if e.key.rank < d.key.rank then e :: d :: ds
    else d :: putSignature e ds

/-- A DROP: the entry of a key is removed, if there is one (R93). -/
def dropSignature (k : SigKey) (es : List SigEntry) : List SigEntry := es.filter fun e => !(e.key == k)

/-! ### The other tables -/

/-- The tables changed. -/
def State.modTables (s : State) (f : Tables → Tables) : State :=
  { s with store := { s.store with tables := f s.store.tables } }

/-- The levels a pocket takes: hard_level is held at count + inbound when it lies below it
(R132.1). -/
def heldLevels (x : Pocket) (v : Levels) : Levels := { v with hardLevel := max v.hardLevel (x.count + x.inbound) }

/-- A pocket whose levels have changed (R132.2 to R132.4): OPEN becomes FULL at full_level with latch
and notice, FULL becomes OPEN below it. -/
def State.settlePocket (s : State) (l : Lane) (k : Fin 10) (v : Levels) : State :=
  let x := s.pocket l k
  match x.state with
  | .opened => if v.fullLevel ≤ x.count + x.inbound then s.pocketFull l k v else s
  | .full => if x.count + x.inbound < v.fullLevel then s.modPocket l k fun x => { x with state := .opened } else s
  | .sweepWait | .sweep => s

/-- A half of the Stacker Map with one route's list replaced (R132). -/
def Stacker.withRoute (r : Fin 9) (ps : List (Fin 10)) (m : Stacker) : Stacker :=
  { m with routes := m.routes.set r.val ps r.isLt }

/-- A half of the Stacker Map with one pocket's levels replaced (R132). -/
def Stacker.withLevels (k : Fin 10) (v : Levels) (m : Stacker) : Stacker :=
  { m with levels := m.levels.set k.val v k.isLt }

/-- The Stacker Map with one half changed. -/
def Tables.modStacker (l : Lane) (f : Stacker → Stacker) (t : Tables) : Tables :=
  { t with stacker := t.stacker.set l (f (t.stacker.get l)) }

/-- The Monitor Profile with one monitor entry replaced (R153). -/
def MonitorProfile.withEntry (m : MonitorId) (e : MonitorEntry) (p : MonitorProfile) : MonitorProfile :=
  { p with monitors := p.monitors.set m e }

/-- One entry is applied: it replaces every field of the record its key names, a DROP removes its
record (R93, R132, R161, R168). A Lane Geometry record and the Die common record are loaded from then
on (R38, R126). -/
def State.applyEntry (s : State) : Entry → State
  | .profile n p => s.modTables fun t => { t with profiles := t.profiles.set n.val p n.isLt }
  | .channels c => s.modTables fun t => { t with channels := c }
  | .put e => s.modTables fun t => { t with signature := putSignature e t.signature }
  | .drop k => s.modTables fun t => { t with signature := dropSignature k t.signature }
  | .geometry l g => s.modTables fun t => { t with geometry := t.geometry.set l { g with loaded := true } }
  | .route l r ps => s.modTables (Tables.modStacker l (Stacker.withRoute r ps))
  | .levels l k v =>
    let w := heldLevels (s.pocket l k) v
    (s.modTables (Tables.modStacker l (Stacker.withLevels k w))).settlePocket l k w
  | .window n => s.modTables fun t => { t with monitor := { t.monitor with winLen := n } }
  | .monitor m e => s.modTables fun t => { t with monitor := t.monitor.withEntry m e }
  | .dieCommon c => s.modTables fun t => { t with dieCommon := { c with loaded := true } }
  | .dieHead l h d => s.modTables fun t => { t with dieHeads := t.dieHeads.set l ((t.dieHeads.get l).set h d) }

/-! ### ENTRY_APPLICATION (R168, R169) -/

/-- The store with another state. -/
def State.setPhase (s : State) (p : Phase) : State := { s with store := { s.store with phase := p } }

/-- The states of the store after an application (R168, R169): the write that goes on, and the state
after its last entry. -/
def Phase.afterEntry (mark : Bool) (p : Programming) : Phase :=
  match p.todo with
  | [] => .ready
  | _ :: _ => if mark then .suspended p else .programming p false

/-- A write with one more entry applied (R168). -/
def Programming.advance (rest : List Entry) (p : Programming) : Programming :=
  { p with applied := p.applied + 1, todo := rest }

/-- The commit whose last entry has been applied is answered DONE in its own reservation (R22,
R168). -/
def State.finishWrite (s : State) (p : Programming) : State :=
  match p.todo with
  | [] => s.respond p.commit .done []
  | _ :: _ => s

/-- ENTRY_APPLICATION: one entry of the programming write is applied (R168, R169). -/
def execEntryApplication (s : State) : Result :=
  .next
    (match s.store.phase with
    | .programming p mark =>
      match p.todo with
      | [] => s
      | e :: rest =>
        let p' := p.advance rest
        ((s.applyEntry e).setPhase (.afterEntry mark p')).finishWrite p'
    | .nestedProgramming p q =>
      match q.todo with
      | [] => s
      | e :: rest =>
        let q' := q.advance rest
        ((s.applyEntry e).setPhase (if rest.isEmpty then .suspended p else .nestedProgramming p q')).finishWrite q'
    | .ready | .staging _ | .suspended _ | .nestedStaging _ _ => s)

end Sys2Proof.Machine
end

