-- ==== Sys2Proof/Machine/Reset.lean ====
section
/-! DEFINITION. Power-on, the RESET input, the line reset of every block, and LINE_RESET (R17, R34,
R35, R61, R76, R102, R115, R128, R144, R152, R173, 10.5). -/

namespace Sys2Proof.Machine

/-- POWER_ON: every piece of state takes its initial value. The levels of the external inputs, the
queue of steps and the count of free choices are not the part's state and stay (log entry 2). -/
def execPowerOn (s : State) : Result :=
  .next
    { State.reset with
      lanes :=
        { a := { LaneS.initial with eyeCovered := s.lanes.a.eyeCovered }
          b := { LaneS.initial with eyeCovered := s.lanes.b.eyeCovered } }
      resetActive := s.resetActive, freeCount := s.freeCount, pending := s.pending }

/-! ### The line reset, block by block -/

/-- The Command Interpreter and the Report Queue at a line reset (R35). -/
def State.resetReports (s : State) : State :=
  { s with
    interp := { queue := [], executing := none }
    reports := { s.reports with queued := [], reserved := 0, batch := [] } }

/-- The Table Store at a line reset: a write that is open, programming or suspended is cut off, with
ABORTED and its latch (R173). -/
def State.resetStore (s : State) : State :=
  match s.store.phase with
  | .ready => s
  | .staging _ | .programming _ _ | .suspended _ | .nestedStaging _ _ | .nestedProgramming _ _ =>
    (s.setPhase .ready).setFlag .aborted

/-- The shared part of Scan Capture and the scoring queues at a line reset: the wait list and both
queues are emptied, and a job that is being scored keeps its slot (R76, R79, R81). -/
def State.resetScan (s : State) : State :=
  { s with scan := { s.scan with waitList := [] }, scorer := { s.scorer with queues := ⟨[], []⟩ } }

/-- A head at a line reset (R115, R128). -/
def Head.lineReset (belt : Pos) (h : Head) : Head := { h.emptied with freePos := belt }

/-- A lane's own state at a line reset, once its records have been retired (R61, R76, R102, R115,
R154, 10.5). -/
def LaneS.lineReset (x : LaneS) : LaneS :=
  { x with
    state := .stopped, eye := .idle, forwardMark := none, window := none, feedRate := .hold
    rings := .all [], highMarks := .all none, auditCounter := 0
    gate := { setting := .pass, freePos := x.belt }
    heads := ⟨x.heads.l.lineReset x.belt, x.heads.t.lineReset x.belt⟩
    monitors := ⟨.clear, .clear, .clear, .clear⟩ }

/-- LANE_CHANGE is set by a reset that changes a lane's state (R29, R61). -/
def State.latchChange (s : State) (left : LaneState) : State := if left = .stopped then s else s.setLatch .laneChange

/-- One lane at a line reset: its booking lists are emptied, its records retired RESET_LOST, oldest
first, and its state takes its reset values (R61, R128). -/
def State.resetLane (s : State) (l : Lane) : State :=
  (((s.emptyBookings l).retireAll l .lineReset).modLane l LaneS.lineReset).latchChange (s.lane l).state

/-- The frames of a line reset for a lane: SAFE, then FEED HOLD where the rate was not HOLD (R17, R61,
R160). -/
def resetFrames (l : Lane) (rate : FeedRate) (s : State) : State :=
  let s1 := s.joinAct l .safe
  if rate = .hold then s1 else s1.joinAct l (.feed .hold)

/-- A line reset (R34). Both ACT queues are emptied before any frame is placed (R17); which lane's
frames are placed first is left open (log entry 3). -/
def State.lineReset (s : State) : State :=
  let s1 := ((((s.resetReports.resetStore).resetScan).resetLane .a).resetLane .b)
  ((s1.emptyAct .a).emptyAct .b).inEitherOrder (resetFrames .a (s.lane .a).feedRate) (resetFrames .b (s.lane .b).feedRate)

/-! ### The RESET input (R34) -/

/-- RESET_INPUT: the input changes from inactive to active, and a line reset is taken (R34). -/
def execResetInput (s : State) : Result :=
  .next (if s.resetActive then s else { s.lineReset with resetActive := true })

/-- RESET_INACTIVE: the input changes from active to inactive (R34). -/
def execResetInactive (s : State) : Result := .next { s with resetActive := false }

/-! ### LINE_RESET (R34) -/

/-- The DONE of a LINE_RESET, in a fresh slot (R34). -/
def State.answerReset (s : State) (c : Cmd) : State :=
  s.queueReport { dest := c.src, src := s.link.station, body := .response c.code c.number .done [] }

/-- LINE_RESET: a line reset, and then its DONE (R34). -/
def execLineReset (s : State) : Result := .next (s.completion 0x09 noArgs fun s c _ => s.lineReset.answerReset c)

end Sys2Proof.Machine
end

