-- ==== Sys2Proof/Machine/TableCommands.lean ====
section
/-! DEFINITION. The Table Store's commands (R163 to R172). -/

namespace Sys2Proof.Machine

/-! ### Writes that are staged -/

/-- A sticky flag stands (R163, R164.1). -/
def State.anyFlag (s : State) : Bool := s.store.flags != 0

/-- The open write that receives entries (R165). -/
def Phase.open? : Phase → Option Staged
  | .staging w | .nestedStaging _ w => some w
  | .ready | .programming _ _ | .suspended _ | .nestedProgramming _ _ => none

/-- The state the store returns to when the open write's buffer is discarded (R164 to R167). -/
def Phase.discarded : Phase → Phase
  | .staging _ => .ready
  | .nestedStaging p _ => .suspended p
  | p => p

/-- The state with the open write's buffer replaced. -/
def Phase.withOpen (w : Staged) : Phase → Phase
  | .staging _ => .staging w
  | .nestedStaging p _ => .nestedStaging p w
  | p => p

/-- The open write's buffer is discarded, if there is one. -/
def State.discardOpen (s : State) : State := s.setPhase s.store.phase.discarded

/-- A table command is refused with a flag and its code (R163). -/
def State.refuseWrite (s : State) (c : Cmd) (x : StickyFlag) (rc : ResponseCode) : State :=
  (s.setFlag x).complete c rc []

/-- A table is locked (R171). -/
def Store.locked (k : Store) : Table → Bool
  | .ink => k.lockInk
  | .geometry => k.lockGeometry
  | .die => k.lockDie
  | .signature | .stacker | .monitor => false

/-- A lane is STOPPED. -/
def State.stopped (s : State) (l : Lane) : Bool := (s.lane l).state == .stopped

/-- A lane belongs to a lane set. -/
def LaneSet.has : LaneSet → Lane → Bool
  | .onlyA, .a | .onlyB, .b | .both, _ => true
  | .onlyA, .b | .onlyB, .a => false

/-- The interlock of an open holds (R164.4). -/
def State.openInterlock (s : State) (t : Table) (ls : LaneSet) : Bool :=
  match t with
  | .ink => s.stopped .a && s.stopped .b
  | .geometry => (!ls.has .a || s.stopped .a) && (!ls.has .b || s.stopped .b)
  | .signature | .stacker | .monitor | .die => true

/-! ### TABLE_OPEN (R164) -/

/-- The arguments of TABLE_OPEN: a table, a count of 1 to 32 and a lane set. A lane set that names
nothing is out of range for every table, those whose open ignores it included: DEDUCED (log entry
11). -/
def openArgs : List Byte → Args (Table × Nat × LaneSet)
  | [t, n, ls] =>
    inRange do return (← tableOf t, ← within 1 32 n.toNat, ← laneSetOf ls)
  | _ => .wrongLength

/-- The state that opening a write enters (R164.5). -/
def Phase.opened (w : Staged) : Phase → Phase
  | .suspended p => .nestedStaging p w
  | _ => .staging w

/-- A suspended write bars the table from a nested write (R164.2, R170). -/
def Phase.barred (t : Table) : Phase → Bool
  | .suspended p => t == p.table || t == .signature
  | _ => false

/-- The tests of an open in READY or SUSPENDED, in their order (R164). -/
def State.tryOpen (s : State) (c : Cmd) (t : Table) (count : Nat) (ls : LaneSet) : State :=
  if s.anyFlag then s.complete c .errorsPending []
  else if s.store.phase.barred t then s.complete c .tableBusy []
  else if s.store.locked t then s.refuseWrite c .lock .locked
  else if !s.openInterlock t ls then s.refuseWrite c .interlock .interlock
  else (s.setPhase (s.store.phase.opened { table := t, laneSet := ls, count := count, received := [] })).done c

/-- TABLE_OPEN (R164). -/
def execTableOpen (s : State) : Result :=
  .next
    (s.completion 0x38 openArgs fun s c a =>
      match s.store.phase with
      | .ready | .suspended _ => s.tryOpen c a.1 a.2.1 a.2.2
      | .programming _ _ => s.complete c .tableBusy []
      | .staging _ | .nestedStaging _ _ | .nestedProgramming _ _ => s.discardOpen.refuseWrite c .sequence .sequence)

/-! ### TABLE_FILL (R165) -/

/-- What the bytes after `k` spell (R175): entries with their tables, sized by their table bytes. -/
inductive Split where
  | short
  | unknownTable
  | entries (es : List (Table × List Byte)) (left : List Byte)

/-- `k` entries can be `n` bytes long, whatever their tables (12.4). -/
def entriesFit : Nat → Nat → Bool
  | 0, n => n == 0
  | k + 1, n =>
    [Table.ink, .signature, .geometry, .stacker, .monitor, .die].any fun t =>
      decide (t.entrySize ≤ n) && entriesFit k (n - t.entrySize)

/-- `k` entries from the front of a run of bytes; an entry is kept without its table byte. An unknown
table byte sizes nothing: the bytes from it on are too short, or too long, where no tables give the
entries that are left that length (R20.2, log entry 12). -/
def splitEntries : Nat → List Byte → Split
  | 0, bs => .entries [] bs
  | _ + 1, [] => .short
  | k + 1, t :: bs =>
    match tableOf t with
    | none => if entriesFit (k + 1) (bs.length + 1) then .unknownTable else .short
    | some table =>
      let n := table.entrySize - 1
      if bs.length < n then .short
      else
        match splitEntries k (bs.drop n) with
        | .entries es left => .entries ((table, bs.take n) :: es) left
        | x => x

/-- The arguments of TABLE_FILL (R165, R175): k of 1 to 8, and k whole entries of known tables. The
layout allows no length for another k, which is a wrong length whatever follows it: DEDUCED (log entry
20). An entry of an unknown table is a field out of range, once the length is one that some tables give:
DESIGN CHOICE (log entry 12). -/
def fillArgs : List Byte → Args (List (Table × List Byte))
  | [] => .wrongLength
  | k :: bs =>
    if 1 ≤ k.toNat ∧ k.toNat ≤ 8 then
      match splitEntries k.toNat bs with
      | .short => .wrongLength
      | .unknownTable => .outOfRange
      | .entries es left => if left ≠ [] then .wrongLength else .valid es
    else .wrongLength

/-- The carried entries join the open write's buffer (R165). -/
def Staged.take (es : List (Table × List Byte)) (w : Staged) : Staged :=
  { w with received := w.received ++ es.map Prod.snd }

/-- TABLE_FILL in STAGING or NESTED_STAGING (R165, R175). -/
def State.fill (s : State) (c : Cmd) (w : Staged) (es : List (Table × List Byte)) : State :=
  if es.any fun e => e.1 != w.table then s.complete c .badArgument []
  else if w.count < w.received.length + es.length then s.discardOpen.refuseWrite c .sequence .sequence
  else
    (s.setPhase (s.store.phase.withOpen (w.take es))).complete c .done [byte (w.take es).received.length]

/-- TABLE_FILL (R165). -/
def execTableFill (s : State) : Result :=
  .next
    (s.completion 0x39 fillArgs fun s c es =>
      match s.store.phase.open? with
      | some w => s.fill c w es
      | none => s.refuseWrite c .sequence .sequence)

/-! ### TABLE_COMMIT (R167) -/

/-- The signature keys that the DROPs name and the table holds. -/
def dropsPresent (t : List SigEntry) (es : List Entry) : Nat :=
  (es.filter fun e =>
    match e with
    | .drop k => t.any fun d => d.key == k
    | _ => false).length

/-- The PUTs whose key the table does not hold. -/
def putsAbsent (t : List SigEntry) (es : List Entry) : Nat :=
  (es.filter fun e =>
    match e with
    | .put d => !t.any fun x => x.key == d.key
    | _ => false).length

/-- The capacity sum fits (check 4 of R167); it is 0 for every table but the Signature Table. -/
def fits (t : List SigEntry) (es : List Entry) : Bool :=
  decide (t.length + putsAbsent t es ≤ Config.signatureCapacity + dropsPresent t es)

/-- The lane an entry of Lane Geometry names. -/
def Entry.geometryLane? : Entry → Option Lane
  | .geometry l _ => some l
  | _ => none

/-- The interlock of a commit holds (check 5 of R167). -/
def State.commitInterlock (s : State) (w : Staged) (es : List Entry) : Bool :=
  match w.table with
  | .ink => s.stopped .a && s.stopped .b
  | .geometry => (es.filterMap Entry.geometryLane?).all fun l => w.laneSet.has l && s.stopped l
  | .signature | .stacker | .monitor | .die => true

/-- Whether an entry is a DROP. -/
def Entry.isDrop : Entry → Bool
  | .drop _ => true
  | _ => false

/-- The order of application: staged order, but for the Signature Table every DROP first (R168). -/
def applicationOrder (es : List Entry) : List Entry := es.filter Entry.isDrop ++ es.filter fun e => !e.isDrop

/-- What the checks of a commit give (R167). -/
inductive Commit where
  | fails (x : StickyFlag) (rc : ResponseCode)
  | passes (es : List Entry)

/-- The checks of a commit in their order (R167). -/
def State.checkCommit (s : State) (w : Staged) : Commit :=
  if w.received.length ≠ w.count then .fails .sequence .sequence
  else
    match w.received.mapM (s.readEntry w.table) with
    | none => .fails .range .range
    | some es =>
      if ¬(es.map Entry.key).Nodup then .fails .duplicate .duplicate
      else if w.table = .signature ∧ fits s.store.tables.signature es = false then .fails .full .full
      else if s.commitInterlock w es = false then .fails .interlock .interlock
      else .passes es

/-- The state in which a committed write is programmed (R167). -/
def Phase.committed (p : Programming) : Phase → Phase
  | .nestedStaging outer _ => .nestedProgramming outer p
  | _ => .programming p false

/-- A commit whose checks have passed: programming begins, no response is built, the reservation
stays, and the interpreter is free (R22, R167). -/
def State.beginProgramming (s : State) (c : Cmd) (w : Staged) (es : List Entry) : State :=
  let p : Programming := { table := w.table, total := w.count, applied := 0, todo := applicationOrder es, commit := c }
  { s.setPhase (s.store.phase.committed p) with interp := { s.interp with executing := none } }

/-- TABLE_COMMIT (R167). -/
def execTableCommit (s : State) : Result :=
  .next
    (s.completion 0x3A noArgs fun s c _ =>
      match s.store.phase.open? with
      | none => s.refuseWrite c .sequence .sequence
      | some w =>
        match s.checkCommit w with
        | .fails x rc => s.discardOpen.refuseWrite c x rc
        | .passes es => s.beginProgramming c w es)

/-! ### The other commands -/

/-- TABLE_ABANDON (R166). -/
def execTableAbandon (s : State) : Result :=
  .next
    (s.completion 0x3B noArgs fun s c _ =>
      match s.store.phase.open? with
      | some _ => s.discardOpen.done c
      | none => s.complete c .wrongState [])

/-- TABLE_STATUS_CLEAR: the flags as they stood are answered, and all become clear (R163). -/
def execTableStatusClear (s : State) : Result :=
  .next
    (s.completion 0x3C noArgs fun s c _ =>
      { s with store := { s.store with flags := 0 } }.complete c .done [byte s.store.flags.toNat])

/-- TABLE_SUSPEND: the outer write is marked (R169). -/
def execTableSuspend (s : State) : Result :=
  .next
    (s.completion 0x3D noArgs fun s c _ =>
      match s.store.phase with
      | .programming p _ => (s.setPhase (.programming p true)).done c
      | .ready | .staging _ | .suspended _ | .nestedStaging _ _ | .nestedProgramming _ _ => s.complete c .wrongState [])

/-- TABLE_RESUME (R169). -/
def execTableResume (s : State) : Result :=
  .next
    (s.completion 0x3E noArgs fun s c _ =>
      match s.store.phase with
      | .suspended p => (s.setPhase (.programming p false)).done c
      | .nestedStaging _ _ | .nestedProgramming _ _ => s.complete c .nestedBusy []
      | .ready | .staging _ | .programming _ _ => s.complete c .wrongState [])

/-- A table that can be locked (R161). -/
def Table.lockable : Table → Bool
  | .ink | .geometry | .die => true
  | .signature | .stacker | .monitor => false

/-- The argument of TABLE_LOCK: a lockable table (R171). -/
def lockArg : List Byte → Args Table
  | [t] => inRange ((tableOf t).filter Table.lockable)
  | _ => .wrongLength

/-- A table becomes locked (R171). -/
def Store.lock (t : Table) (k : Store) : Store :=
  match t with
  | .ink => { k with lockInk := true }
  | .geometry => { k with lockGeometry := true }
  | .die => { k with lockDie := true }
  | .signature | .stacker | .monitor => k

/-- The store's state bars a lock (R171). -/
def Phase.barsLock (t : Table) : Phase → Bool
  | .ready => false
  | .suspended p => t == p.table
  | .staging _ | .programming _ _ | .nestedStaging _ _ | .nestedProgramming _ _ => true

/-- TABLE_LOCK (R171). -/
def execTableLock (s : State) : Result :=
  .next
    (s.completion 0x3F lockArg fun s c t =>
      if s.store.phase.barsLock t then s.complete c .tableBusy [] else { s with store := s.store.lock t }.done c)

/-! ### TABLE_READ (R172) -/

/-- Status and entry of each index, without a status of its own: 0 (12.2). -/
def plainRow (bs : List Byte) : List Byte := byte 0 :: bs

/-- A Lane Geometry record as it is read, with its loaded flag. -/
def geometryRow (l : Lane) (g : Geometry) : List Byte := byte (switchNat g.loaded) :: geometryEntry l g

/-- One half of the Stacker Map as it is read: nine routes, then ten level pairs. -/
def stackerRows (l : Lane) (m : Stacker) : List (List Byte) :=
  (List.finRange 9).map (fun r => plainRow (routeEntry l r.val (m.routes.get r)))
    ++ (List.finRange 10).map fun k => plainRow (levelsEntry l k.val (m.levels.get k))

/-- The postmark date and hour as they stand, 0 while no date is set (R127, 12.2). -/
def dateBytes (d : Option PostDate) : List Byte :=
  match d with
  | none => [0, 0, 0, 0, 0]
  | some t => beBytes 2 t.year ++ [byte t.month, byte t.day, byte t.hour]

/-- The rows of a table by index (R172). -/
def State.tableRows (s : State) (t : Table) : List (List Byte) :=
  let k := s.store.tables
  match t with
  | .ink =>
    ((List.finRange 8).map fun n => plainRow (profileEntry n.val (k.profiles.get n))) ++ [plainRow (channelEntry k.channels)]
  | .signature => k.signature.map fun e => plainRow (signatureEntry e)
  | .geometry => [geometryRow .a k.geometry.a, geometryRow .b k.geometry.b]
  | .stacker => stackerRows .a k.stacker.a ++ stackerRows .b k.stacker.b
  | .monitor =>
    plainRow (windowEntry k.monitor.winLen)
      :: [MonitorId.reject, .late, .shingle, .reference].map fun m => plainRow (monitorEntry m (k.monitor.monitors.get m))
  | .die =>
    [byte (switchNat k.dieCommon.loaded) :: dieCommonEntry k.dieCommon ++ dateBytes s.date,
      plainRow (dieHeadEntry .a .l k.dieHeads.a.l), plainRow (dieHeadEntry .a .t k.dieHeads.a.t),
      plainRow (dieHeadEntry .b .l k.dieHeads.b.l), plainRow (dieHeadEntry .b .t k.dieHeads.b.t)]

/-- The arguments of TABLE_READ: a table, a first index and a count of 1 to 8 (R172). -/
def readArgs : List Byte → Args (Table × Nat × Nat)
  | [t, f, n] => inRange do return (← tableOf t, f.toNat, ← within 1 8 n.toNat)
  | _ => .wrongLength

/-- The result data of TABLE_READ (R172, 12.2). -/
def State.tableData (s : State) (t : Table) (first count : Nat) : List Byte :=
  let rows := s.tableRows t
  let carried := (rows.drop first).take count
  [byte t.toNat, byte first, byte carried.length] ++ beBytes 2 rows.length ++ carried.flatten

/-- TABLE_READ (R172). -/
def execTableRead (s : State) : Result :=
  .next (s.completion 0x40 readArgs fun s c a => s.complete c .done (s.tableData a.1 a.2.1 a.2.2))

end Sys2Proof.Machine
end

