-- ==== Sys2Proof/Machine/Dispatch.lean ====
section
/-! DEFINITION. The meaning of every step: one arm per constructor of Instr. -/

namespace Sys2Proof.Machine

/-- The effect of a step on everything but the queue of waiting steps. -/
def exec (i : Instr) (s : State) : Host.Outcome State Fault Refusal :=
  match i with
  | .powerOn => Sys2Proof.Machine.execPowerOn s
  | .resetInput => Sys2Proof.Machine.execResetInput s
  | .resetInactive => Sys2Proof.Machine.execResetInactive s
  | .unitReceived unit => Sys2Proof.Machine.execUnitReceived unit s
  | .sampleFrame unit => Sys2Proof.Machine.execSampleFrame unit s
  | .commandFrame unit => Sys2Proof.Machine.execCommandFrame unit s
  | .actStatusFrame unit => Sys2Proof.Machine.execActStatusFrame unit s
  | .transmissionEnd => Sys2Proof.Machine.execTransmissionEnd s
  | .beltStep lane forward => Sys2Proof.Machine.execBeltStep lane forward s
  | .leadingEdge lane => Sys2Proof.Machine.execLeadingEdge lane s
  | .trailingEdge lane => Sys2Proof.Machine.execTrailingEdge lane s
  | .holdEnd lane => Sys2Proof.Machine.execHoldEnd lane s
  | .coveredLimit lane => Sys2Proof.Machine.execCoveredLimit lane s
  | .overlengthPoint lane tag => Sys2Proof.Machine.execOverlengthPoint lane tag s
  | .sampleWaitExpiry lane tag => Sys2Proof.Machine.execSampleWaitExpiry lane tag s
  | .decisionPoint lane tag => Sys2Proof.Machine.execDecisionPoint lane tag s
  | .strikeStart lane head tag => Sys2Proof.Machine.execStrikeStart lane head tag s
  | .strikeEnd lane head tag => Sys2Proof.Machine.execStrikeEnd lane head tag s
  | .pocketPoint lane tag => Sys2Proof.Machine.execPocketPoint lane tag s
  | .retirement lane tag => Sys2Proof.Machine.execRetirement lane tag s
  | .windowEnd lane => Sys2Proof.Machine.execWindowEnd lane s
  | .commandTake => Sys2Proof.Machine.execCommandTake s
  | .engineTake => Sys2Proof.Machine.execEngineTake s
  | .scoringComplete => Sys2Proof.Machine.execScoringComplete s
  | .entryApplication => Sys2Proof.Machine.execEntryApplication s
  | .unknownCommand => Sys2Proof.Machine.execUnknownCommand s
  | .linkAddress => Sys2Proof.Machine.execLinkAddress s
  | .linkCountersClear => Sys2Proof.Machine.execLinkCountersClear s
  | .statusRead => Sys2Proof.Machine.execStatusRead s
  | .laneTrackRead => Sys2Proof.Machine.execLaneTrackRead s
  | .noticeMask => Sys2Proof.Machine.execNoticeMask s
  | .pieceReport => Sys2Proof.Machine.execPieceReport s
  | .reportFlush => Sys2Proof.Machine.execReportFlush s
  | .clearIndications => Sys2Proof.Machine.execClearIndications s
  | .lineReset => Sys2Proof.Machine.execLineReset s
  | .laneStart => Sys2Proof.Machine.execLaneStart s
  | .laneStop => Sys2Proof.Machine.execLaneStop s
  | .jamClear => Sys2Proof.Machine.execJamClear s
  | .pieceAudit => Sys2Proof.Machine.execPieceAudit s
  | .auditRead => Sys2Proof.Machine.execAuditRead s
  | .auditRelease => Sys2Proof.Machine.execAuditRelease s
  | .inkRefill => Sys2Proof.Machine.execInkRefill s
  | .dieDate => Sys2Proof.Machine.execDieDate s
  | .sweepStart => Sys2Proof.Machine.execSweepStart s
  | .sweepDone => Sys2Proof.Machine.execSweepDone s
  | .countSnapshot => Sys2Proof.Machine.execCountSnapshot s
  | .tableOpen => Sys2Proof.Machine.execTableOpen s
  | .tableFill => Sys2Proof.Machine.execTableFill s
  | .tableCommit => Sys2Proof.Machine.execTableCommit s
  | .tableAbandon => Sys2Proof.Machine.execTableAbandon s
  | .tableStatusClear => Sys2Proof.Machine.execTableStatusClear s
  | .tableSuspend => Sys2Proof.Machine.execTableSuspend s
  | .tableResume => Sys2Proof.Machine.execTableResume s
  | .tableLock => Sys2Proof.Machine.execTableLock s
  | .tableRead => Sys2Proof.Machine.execTableRead s

end Sys2Proof.Machine
end

