-- ==== Sys2Proof/Safety.lean ====
section
/-! DEFINITION. What a safe run is: the traffic of the outbound link as a claim sees it, and the
invariants the spec states of the whole part. -/

namespace Sys2Proof.Machine

/-! ### The outbound traffic -/

/-- The frame is an ACT frame of a lane. -/
def OutFrame.forLane (l : Lane) (f : OutFrame) : Bool :=
  match f.body with
  | .act m _ => m == l
  | .response .. | .notice .. => false

/-- The frame is a RESPONSE or a NOTICE. -/
def OutFrame.isReport (f : OutFrame) : Bool :=
  match f.body with
  | .act .. => false
  | .response .. | .notice .. => true

/-- The frame of its own that the transmitter holds. -/
def Link.sendingOwn (k : Link) : List OutFrame :=
  match k.sending with
  | some (.own f) => [f]
  | _ => []

/-- The unit passing through that the transmitter holds. -/
def Link.sendingPassed (k : Link) : List (List Byte) :=
  match k.sending with
  | some (.passed u) => [u]
  | _ => []

/-- The report frames on their way, oldest first: the one being sent and the queued ones. -/
def State.reportTraffic (s : State) : List OutFrame := s.link.sendingOwn.filter OutFrame.isReport ++ s.reports.queued

/-- The ACT frames of a lane on their way, oldest first. -/
def State.actTraffic (s : State) (l : Lane) : List OutFrame :=
  s.link.sendingOwn.filter (OutFrame.forLane l) ++ s.link.act.get l

/-- The units passing through, oldest first. -/
def State.passTraffic (s : State) : List (List Byte) := s.link.sendingPassed ++ s.link.fifo

/-- The part with its outbound traffic and the arbiter's memories left out of sight: what a step
changes besides the frames it sends. -/
def State.quiet (s : State) : State :=
  { s with
    link := { s.link with fifo := [], act := ⟨[], []⟩, lastAct := .a, lastGrant := .pass, sending := none }
    reports := { s.reports with queued := [] } }

/-- Every queue holds only frames of its own kind (R10, R11). -/
structure State.FramesFiled (s : State) : Prop where
  act : ∀ l, ∀ f ∈ s.link.act.get l, f.forLane l = true
  reports : ∀ f ∈ s.reports.queued, f.isReport = true

/-! ### What a step gives -/

/-- A step answers a next state: what it changes besides the traffic, the report frames it adds, and
the ACT frames it adds for each lane. Nothing that was on its way is touched. -/
def Gives (i : Instr) (s u : State) (reports : List OutFrame) (acts : Lane → List OutFrame) : Prop :=
  ∃ t, exec i s = .next t ∧ t.quiet = u.quiet ∧ t.reportTraffic = s.reportTraffic ++ reports
    ∧ (∀ l, t.actTraffic l = s.actTraffic l ++ acts l) ∧ t.passTraffic = s.passTraffic

/-- No frames for either lane. -/
def noActs : Lane → List OutFrame := fun _ => []

/-- Frames for one lane. -/
def actsFor (l : Lane) (fs : List OutFrame) : Lane → List OutFrame := fun m => if m = l then fs else []

/-- The command `c`, of a code, is executing, and every queue holds frames of its own kind. -/
structure Executing (s : State) (code : Byte) (c : Cmd) : Prop where
  running : s.interp.executing = some c
  code : c.code = code
  filed : s.FramesFiled

/-- The part after the executing command has been answered: the interpreter is free and the
reservation has been used (R19, R21). -/
def State.answered (s : State) : State :=
  { s with
    interp := { s.interp with executing := none }
    reports := { s.reports with reserved := s.reports.reserved - 1 } }

/-- The response of a command (R10, R21). -/
def State.response (s : State) (c : Cmd) (rc : ResponseCode) (data : List Byte) : OutFrame :=
  { dest := c.src, src := s.link.station, body := .response c.code c.number rc data }

/-- A completion: the part becomes `u`, and the response is the last report frame. -/
def Completes (i : Instr) (s : State) (c : Cmd) (u : State) (rc : ResponseCode) (data : List Byte) : Prop :=
  Gives i s u.answered [u.response c rc data] noActs

/-- A completion that first builds notices. -/
def CompletesAfter (i : Instr) (s : State) (c : Cmd) (notices : List OutFrame) (u : State) (rc : ResponseCode)
    (data : List Byte) : Prop :=
  Gives i s u.answered (notices ++ [u.response c rc data]) noActs

/-- The frame of a notice of a class: none when its class is off or no slot is free (R24). -/
def State.noticeFrames (s : State) (k : NoticeClass) (m : NoticeMsg) : List OutFrame :=
  if s.classOn k && s.slotFree then
    [{ dest := s.link.controller, src := s.link.station, body := .notice s.reports.nextSerial m }]
  else []

/-- The part after a notice of a class has been built, or not: the serial, NOTICE_LOST and its latch
(R24). -/
def State.noted (s : State) (k : NoticeClass) : State :=
  if s.classOn k then
    if s.slotFree then { s with reports := { s.reports with nextSerial := s.reports.nextSerial + 1 } }
    else
      { s with
        reports :=
          { s.reports with
            nextSerial := s.reports.nextSerial + 1
            noticeLost := min (s.reports.noticeLost + 1) 65535
            latches := s.reports.latches ||| 0x200#11 } }
  else s

/-- The PIECE notice of the open batch, if it holds records (R26). -/
def State.batchFrames (s : State) : List OutFrame :=
  if s.reports.batch = [] then [] else s.noticeFrames .piece (.piece s.reports.batch)

/-- The part after the open batch has been closed (R26). -/
def State.batchClosed (s : State) : State :=
  if s.reports.batch = [] then s
  else { s.noted .piece with reports := { (s.noted .piece).reports with batch := [] } }

/-! ### Room for frames, and the steps that build several -/

/-- `n` more notices fit the Report Queue (R18, R23). -/
def State.Slots (s : State) (n : Nat) : Prop :=
  s.reports.queued.length + s.reports.reserved + n ≤ Config.reportSlots

/-- `n` more frames fit a lane's ACT queue (R11). -/
def State.Places (s : State) (l : Lane) (n : Nat) : Prop := (s.link.act.get l).length + n ≤ Config.actDepth

/-- Room for the frames of a step: the queues hold frames of their own kind, with slots and places
free. -/
structure State.Room (s : State) (l : Lane) (slots places : Nat) : Prop where
  filed : s.FramesFiled
  slots : s.Slots slots
  places : s.Places l places

/-- The part after a notice of a class has found a free slot (R24). -/
def State.announced (s : State) (k : NoticeClass) : State :=
  if s.classOn k then { s with reports := { s.reports with nextSerial := s.reports.nextSerial + 1 } } else s

/-- The frame of a notice that finds a free slot: none when its class is off (R24). -/
def State.announcement (s : State) (k : NoticeClass) (m : NoticeMsg) : List OutFrame :=
  if s.classOn k then
    [{ dest := s.link.controller, src := s.link.station, body := .notice s.reports.nextSerial m }]
  else []

/-- The part after the open batch has been closed into a free slot (R26). -/
def State.batchTaken (s : State) : State :=
  if s.reports.batch = [] then s
  else { s.announced .piece with reports := { (s.announced .piece).reports with batch := [] } }

/-- The PIECE notice of a batch that is closed into a free slot (R26). -/
def State.batchSent (s : State) : List OutFrame :=
  if s.reports.batch = [] then [] else s.announcement .piece (.piece s.reports.batch)

/-- The part with indication latches set (R29). -/
def State.withLatches (s : State) (bits : BitVec 11) : State :=
  { s with reports := { s.reports with latches := s.reports.latches ||| bits } }

/-! ### Destinations and consumed frames -/

/-- A destination is addressed to the part (R5). -/
def Link.named (k : Link) (d : Station) : Prop :=
  match k.mode with
  | .nothing => True
  | .line => d.line = k.station.line ∨ d.line = 0xFF#8
  | .position => d.position = k.station.position ∨ d.position = 0xFF#8
  | .both =>
    (d.line = k.station.line ∨ d.line = 0xFF#8) ∧ (d.position = k.station.position ∨ d.position = 0xFF#8)

/-- A destination that is addressed to the part is a broadcast: a compared byte is 0xFF (R5). -/
def Link.wild (k : Link) (d : Station) : Prop :=
  match k.mode with
  | .nothing => False
  | .line => d.line = 0xFF#8
  | .position => d.position = 0xFF#8
  | .both => d.line = 0xFF#8 ∨ d.position = 0xFF#8

/-- The part with one more PASS_DROPS (R9, R14). -/
def State.passDropped (s : State) : State :=
  { s with
    link := { s.link with counters := { s.link.counters with passDrops := min (s.link.counters.passDrops + 1) 65535 } } }

/-- The part with one more FORMAT_ERRORS (R14). -/
def State.formatCounted (s : State) : State :=
  { s with
    link := { s.link with counters := { s.link.counters with formatErrors := min (s.link.counters.formatErrors + 1) 65535 } } }

/-- The part with one free choice drawn (log entry 3). -/
def State.choiceDrawn (s : State) : State := { s with freeCount := s.freeCount + 1 }

/-- While the transmitter holds nothing, no frame waits: the arbiter grants whenever it can (R12). -/
def State.FreeLinkIsIdle (s : State) : Prop :=
  s.link.sending = none → (∀ l, s.link.act.get l = []) ∧ s.link.fifo = [] ∧ s.reports.queued = []

/-- A frame is consumed, and its forwarded copy, where it is a broadcast, goes its own way: to the
FIFO's tail, or lost to a full FIFO (R6, R9). -/
def Consumes (i : Instr) (s : State) (unit : List Byte) (dest : Station) (u : State) (reports : List OutFrame) : Prop :=
  (¬s.link.wild dest → Gives i s u reports noActs)
    ∧ (s.link.wild dest → s.FreeLinkIsIdle →
      (s.link.fifo.length < 4 →
          ∃ t, exec i s = .next t ∧ t.quiet = u.choiceDrawn.quiet ∧ t.reportTraffic = s.reportTraffic ++ reports
            ∧ (∀ l, t.actTraffic l = s.actTraffic l) ∧ t.passTraffic = s.passTraffic ++ [unit])
        ∧ (4 ≤ s.link.fifo.length → Gives i s u.choiceDrawn.passDropped reports noActs))

/-! ### A lane's rate and state -/

/-- A lane that has taken the feed rate its state, monitors and list ask for (R159). -/
def LaneS.rated (x : LaneS) : LaneS := { x with feedRate := x.wantedRate }

/-- The FEED frame of a rate worked out afresh: none while it is the rate the lane holds (R159,
R160). -/
def State.feedActs (s : State) (l : Lane) : List OutFrame :=
  if (s.lane l).wantedRate = (s.lane l).feedRate then [] else [s.actFrame l (.feed (s.lane l).wantedRate)]

/-- The part after a lane has taken a state other than JAMMED: the state, LANE_CHANGE, and the serial
of the LANE notice (R45). -/
def State.entered (s : State) (l : Lane) (st : LaneState) : State :=
  ((s.modLane l fun x => { x with state := st }).withLatches 0x001#11).announced .lane

/-- The LANE notice of a change of state (R45). -/
def State.laneNotice (s : State) (l : Lane) (st : LaneState) : List OutFrame :=
  s.announcement .lane (.lane l (s.lane l).state st (s.lane l).list.length)

/-- A DRAINING lane with no record left (R48). -/
def LaneS.drained (x : LaneS) : Bool := x.state == .draining && x.list.isEmpty

/-- A drained lane becomes STOPPED, its eye IDLE and its window gone; any other lane stays (R48). -/
def State.settled (s : State) (l : Lane) : State :=
  if (s.lane l).drained then
    (s.modLane l fun x => { x with eye := .idle, window := none, forwardMark := none }).entered l .stopped
  else s

/-- The LANE notice of a lane that has drained (R48). -/
def State.settledNotice (s : State) (l : Lane) : List OutFrame :=
  if (s.lane l).drained then s.laneNotice l .stopped else []

/-! ### A jam (R58) -/

/-- A head whose strikes are gone (R128). -/
def Head.cleared (h : Head) : Head := { h with booking := [], reserved := 0 }

/-- A lane as a jam leaves it, but for its scans (R58.1, R58.3, R58.4). -/
def LaneS.jammed (x : LaneS) : LaneS :=
  { x with
    state := .jammed, eye := .idle, forwardMark := none, window := none, feedRate := .hold
    heads := ⟨x.heads.l.cleared, x.heads.t.cleared⟩ }

/-- The part as a jam of a lane leaves it: the lane, its scans, the batch, the serials and the
latches JAM and LANE_CHANGE (R58). -/
def State.jammed (s : State) (l : Lane) : State :=
  ((((s.modLane l LaneS.jammed).withdrawLane l).batchTaken).announced .jam).withLatches 0x003#11

/-- The report frames of a jam: the batch, and then the JAM notice (R58.6). -/
def State.jamReports (s : State) (l : Lane) (cause : JamCause) : List OutFrame :=
  s.batchSent
    ++ s.batchTaken.announcement .jam (.jam l cause (s.lane l).state (s.lane l).belt (s.lane l).list.length)

/-- The ACT frames of a jam: SAFE, and FEED HOLD where the rate was not HOLD or the cause was a FEED
frame that could not be placed (R58.2, R58.3, R160). -/
def State.jamActs (s : State) (l : Lane) (fromFeed : Bool) : List OutFrame :=
  s.actFrame l .safe :: if (s.lane l).feedRate ≠ .hold ∨ fromFeed then [s.actFrame l (.feed .hold)] else []

/-- A step jams a lane: from the part `u` that its own effect leaves, the effects of R58 follow, and
the lane's ACT frames that waited are gone. -/
def Jams (i : Instr) (s u : State) (l : Lane) (cause : JamCause) : Prop :=
  ∃ t, exec i s = .next t ∧ t.quiet = (u.jammed l).quiet ∧ t.reportTraffic = s.reportTraffic ++ u.jamReports l cause
    ∧ t.actTraffic l = s.link.sendingOwn.filter (OutFrame.forLane l) ++ u.jamActs l false
    ∧ t.actTraffic (otherLane l) = s.actTraffic (otherLane l) ∧ t.passTraffic = s.passTraffic

/-- A step jams a lane and offers the frame that caused it to the FIFO, in either order (R6; log entry
3): the frame joins the FIFO's tail. -/
def JamsForwarding (i : Instr) (s : State) (unit : List Byte) (l : Lane) (cause : JamCause) : Prop :=
  ∃ t, exec i s = .next t ∧ t.quiet = (s.choiceDrawn.jammed l).quiet
    ∧ t.reportTraffic = s.reportTraffic ++ s.jamReports l cause
    ∧ t.actTraffic l = s.link.sendingOwn.filter (OutFrame.forLane l) ++ s.jamActs l false
    ∧ t.actTraffic (otherLane l) = s.actTraffic (otherLane l) ∧ t.passTraffic = s.passTraffic ++ [unit]

/-! ### Retirement (R60) -/

/-- A pocket that takes a retired record in (R138). -/
def Pocket.gained (q : Piece) (k : Pocket) : Pocket :=
  { state := if k.state = .sweepWait ∧ k.inbound ≤ 1 then .sweep else k.state
    count := k.count + 1, inbound := k.inbound - 1, valueSum := k.valueSum + q.value
    firstTag := some (k.firstTag.getD q.tag), lastTag := some q.tag }

/-- A head without the strikes of a record, their reserved ink released (R123, R125). -/
def Head.released (tag : Tag) (h : Head) : Head :=
  { h with
    booking := h.booking.filter fun k => k.tag ≠ tag
    reserved := h.reserved - ((h.booking.filter fun k => k.tag = tag).map Strike.cost).sum }

/-- The seven dispositions of a reject (R155). -/
def rejects : List Disposition :=
  [.rejectDouble, .rejectLate, .rejectScan, .rejectNomark, .rejectAmbiguous, .rejectGate, .rejectPocket]

/-- The three dispositions that count by category (R148). -/
def revenues : List Disposition := [.facedCancelled, .facedPrecancel, .facedHand]

/-- A lane after the ordinary or glitch retirement of a record with its disposition: the record and its
strikes are gone, and the disposition counter, the record's pocket and the window's REJECT count have
taken it in (R60, R138, R146, R155). -/
def LaneS.afterRetirement (q : Piece) (d : Disposition) (x : LaneS) : LaneS :=
  { x with
    list := x.list.filter fun p => p.tag ≠ q.tag
    heads := ⟨x.heads.l.released q.tag, x.heads.t.released q.tag⟩
    pockets :=
      match q.pocket with
      | none => x.pockets
      | some k => x.pockets.set k.val ((x.pockets.get k).gained q) k.isLt
    counters :=
      { x.counters with
        dispositions :=
          x.counters.dispositions.set d.index.val (min (x.counters.dispositions.get d.index + 1) 4294967295) d.index.isLt }
    window := x.window.map fun w => if d ∈ rejects then { w with reject := min (w.reject + 1) 65535 } else w }

/-- The part after a category record has gained a faced stamp's piece and value (R148). -/
def State.gainCategory (s : State) (q : Piece) (d : Disposition) : State :=
  match q.finding with
  | some { result := .hit { category := some c, .. }, .. } =>
    if d ∈ revenues then
      let r := s.categories.get c
      { s with
        categories :=
          s.categories.set c.val
            { pieces := min (r.pieces + 1) 4294967295, valueTotal := min (r.valueTotal + q.value) 4294967295 } c.isLt }
    else s
  | _ => s

/-- The corner and the category of a record's finding (R26). -/
def Piece.mark (q : Piece) : Option Corner × Option (Fin 64) :=
  match q.finding with
  | some { result := .hit h, .. } => (some h.corner, h.category)
  | _ => (none, none)

/-- The piece report record of a retired record (R26). -/
def Piece.reported (q : Piece) (l : Lane) (d : Disposition) : PieceReport :=
  { tag := q.tag, lane := l, disposition := some d, corner := q.mark.1
    category := if d ∈ revenues then q.mark.2 else none, pocket := q.pocket, length := q.length }

/-- The part after a record has joined the open batch, which is closed into a free slot at batch_level
(R26); nothing is appended while piece reporting is off. -/
def State.appended (s : State) (r : PieceReport) : State :=
  let u := { s with reports := { s.reports with batch := s.reports.batch ++ [r] } }
  if s.classOn .piece then (if s.reports.batchLevel ≤ s.reports.batch.length + 1 then u.batchTaken else u) else s

/-- The PIECE notice that an appended record closes (R26). -/
def State.appendSent (s : State) (r : PieceReport) : List OutFrame :=
  let u := { s with reports := { s.reports with batch := s.reports.batch ++ [r] } }
  if s.classOn .piece ∧ s.reports.batchLevel ≤ s.reports.batch.length + 1 then u.batchSent else []

/-- The part after every hand-off of a retirement (R60). -/
def State.handedOff (s : State) (l : Lane) (q : Piece) (d : Disposition) : State :=
  (((s.modLane l (LaneS.afterRetirement q d)).gainCategory q d).appended (q.reported l d))

/-- The part after several records have joined the batch, oldest first (R26, R59). -/
def State.appendedAll (s : State) : List PieceReport → State
  | [] => s
  | r :: rs => (s.appended r).appendedAll rs

/-- The PIECE notices that they close. -/
def State.appendAllSent (s : State) : List PieceReport → List OutFrame
  | [] => []
  | r :: rs => s.appendSent r ++ (s.appended r).appendAllSent rs

/-! ### Decisions (R104) -/

/-- The decision point of a record can be taken: the lane runs or drains, the point is reached, and
every older record has been decided (R43). -/
structure Deciding (s : State) (l : Lane) (p : Piece) : Prop where
  here : s.piece? l p.tag = some p
  distinct : ((s.lane l).list.map Piece.tag).Nodup
  active : (s.lane l).active = true
  untaken : p.decisionTaken = false
  older : ∀ q ∈ (s.lane l).list.takeWhile (fun q => q.tag ≠ p.tag), q.decisionTaken = true
  reached : reached (s.lane l).belt (p.lead + BitVec.ofNat 24 (s.geometry l).dDecide) = true

/-- A record is neither SHINGLED nor OVERLENGTH, is SCORED, and holds this finding (R104). -/
structure Piece.Scored (p : Piece) (f : Finding) : Prop where
  shingled : p.shingled = false
  overlength : p.overlength = false
  scan : p.scan = .scored
  finding : p.finding = some f

/-- A pocket can be chosen (R134). -/
def State.selectable (s : State) (l : Lane) (k : Fin 10) : Prop :=
  let v := (s.stackerMap l).levels.get k
  let x := s.pocket l k
  x.state = .opened ∧ x.count + x.inbound < v.fullLevel ∨ x.state = .full ∧ x.count + x.inbound < v.hardLevel

/-- What check 7 gives a HIT record: its route class, with the cancel state and the disposition of its
commit (R106, R108). -/
def State.facing (s : State) (l : Lane) (p : Piece) (f : Finding) (h : Hit) : RouteClass × CancelState × Disposition :=
  match h.kind, f.precancel with
  | .meter, _ => (.meter, .notRequired, .facedMeter)
  | .permit, _ => (.permit, .notRequired, .facedPermit)
  | .stamp, true => (.cancelled, .notRequired, .facedPrecancel)
  | .stamp, false =>
    match s.bookingCheck l (wantedHead h.corner) p.lead h.stampStart with
    | .bookable => (.cancelled, .booked, .facedCancelled)
    | .missed => (.hand, .missed, .facedHand)
    | .suppressed r => (.hand, .suppressed r, .facedHand)

/-- The gate stands for a corner, or can be changed in time (R103, R105). -/
def State.gateServes (s : State) (l : Lane) (p : Piece) (c : Corner) : Prop :=
  wantedSetting c = (s.lane l).gate.setting
    ∨ reached (p.lead + BitVec.ofNat 24 (s.geometry l).dGate) (s.lane l).gate.freePos = true

/-- The check that rejects a record, by its disposition (R104). -/
def State.rejectedBy (s : State) (l : Lane) (p : Piece) (d : Disposition) : Prop :=
  match d with
  | .rejectDouble => p.shingled = true ∨ p.overlength = true
  | .rejectLate => p.shingled = false ∧ p.overlength = false ∧ p.scan ≠ .scored
  | .rejectScan => ∃ f, p.Scored f ∧ f.result = .noData
  | .rejectNomark => ∃ f, p.Scored f ∧ f.result = .noMark
  | .rejectAmbiguous => ∃ f, p.Scored f ∧ f.result = .ambiguous
  | .rejectGate => ∃ f h, p.Scored f ∧ f.result = .hit h ∧ ¬s.gateServes l p h.corner
  | .rejectPocket =>
    ∃ f h, p.Scored f ∧ f.result = .hit h ∧ s.gateServes l p h.corner
      ∧ ∀ k ∈ (s.stackerMap l).list (wantedStream h.corner) (s.facing l p f h).1, ¬s.selectable l k
  | _ => False

/-- A window with one more REJECT_LATE decision (R155). -/
def Window.later (w : Window) : Window := { w with late := min (w.late + 1) 65535 }

/-! ### Window ends (R158) -/

/-- The part after one monitor of a lane has been judged by a window: its state, and the latch and the
serial of a change (R156 to R158). -/
def State.judged (l : Lane) (w : Window) (s : State) (m : MonitorId) : State :=
  let e := w.profile.monitors.get m
  let old := (s.lane l).monitors.get m
  let new := old.judge e (w.bad m)
  if e.enable then
    let u := s.modLane l fun x => { x with monitors := x.monitors.set m new }
    if new.declared = old.declared then u else (u.withLatches (BitVec.ofNat 11 (2 ^ (2 + m.toNat)))).announced .monitor
  else s

/-- The MONITOR notice of a judged monitor that changed (R158). -/
def State.judgedSent (l : Lane) (w : Window) (s : State) (m : MonitorId) : List OutFrame :=
  let e := w.profile.monitors.get m
  let old := (s.lane l).monitors.get m
  let new := old.judge e (w.bad m)
  if e.enable = true ∧ new.declared ≠ old.declared then
    s.announcement .monitor
      (.monitor l m new.declared w.stop (w.judged m) e.limit (if new.declared then e.declareN else e.clearM))
  else []

/-! ### A line reset (R34) -/

/-- The disposition counters after the retirement of `n` records as RESET_LOST or JAM_LOST (R146). -/
def LaneCounters.lost (d : Disposition) (n : Nat) (c : LaneCounters) : LaneCounters :=
  { c with
    dispositions :=
      c.dispositions.set d.index.val
        (if n = 0 then c.dispositions.get d.index else min (c.dispositions.get d.index + n) 4294967295) d.index.isLt }

/-- A pocket once every record assigned to it has been retired uncounted (R138, R144). -/
def Pocket.deserted (k : Pocket) : Pocket :=
  { k with inbound := 0, state := if k.state = .sweepWait then .sweep else k.state }

/-- A head at a line reset (R115, R128). -/
def Head.atReset (belt : Pos) (h : Head) : Head := { h with booking := [], reserved := 0, freePos := belt }

/-- A lane after a line reset (R61, R76, R102, R115, R144, R152, R154, R157, R159). -/
def LaneS.afterReset (x : LaneS) : LaneS :=
  { x with
    state := .stopped, eye := .idle, list := [], forwardMark := none, rings := ⟨[], [], [], []⟩
    highMarks := ⟨none, none, none, none⟩, auditCounter := 0, gate := ⟨.pass, x.belt⟩
    heads := ⟨x.heads.l.atReset x.belt, x.heads.t.atReset x.belt⟩, pockets := x.pockets.map Pocket.deserted
    counters := x.counters.lost .resetLost x.list.length, window := none
    monitors := ⟨.clear, .clear, .clear, .clear⟩, feedRate := .hold }

/-- The part after a line reset, its own free choice drawn (R34, R35, R61, R76, R173; log entry 3). -/
def State.afterReset (s : State) : State :=
  { s with
    interp := { queue := [], executing := none }
    reports :=
      { s.reports with
        queued := [], reserved := 0, batch := []
        latches :=
          s.reports.latches ||| (if s.store.phase = .ready then 0 else 0x400#11)
            ||| (if s.lanes.a.state = .stopped ∧ s.lanes.b.state = .stopped then 0 else 0x001#11) }
    lanes := ⟨s.lanes.a.afterReset, s.lanes.b.afterReset⟩
    scan := { s.scan with waitList := [] }
    scorer := { s.scorer with queues := ⟨[], []⟩ }
    store :=
      if s.store.phase = .ready then s.store
      else { s.store with phase := .ready, flags := s.store.flags ||| 0x40#7 }
    freeCount := s.freeCount + 1 }

/-- The ACT frames of a line reset for a lane: SAFE, then FEED HOLD where the rate was not HOLD
(R61.4, R160). -/
def State.resetActs (s : State) (l : Lane) : List OutFrame :=
  s.actFrame l .safe :: if (s.lane l).feedRate = .hold then [] else [s.actFrame l (.feed .hold)]

/-! ### Table errors -/

/-- The part after a sticky flag has been set: the flag and the TABLE_ERROR latch (R163). -/
def State.flagged (s : State) (x : StickyFlag) : State :=
  { s with
    store := { s.store with flags := s.store.flags ||| BitVec.ofNat 7 (2 ^ x.bit) }
    reports := { s.reports with latches := s.reports.latches ||| 0x400#11 } }

/-- The code of a command and the length of its arguments, for every command of one length (12.2). -/
def commandOf : Instr → Option (Byte × Nat)
  | .linkAddress => some (0x01, 3)
  | .linkCountersClear => some (0x02, 1)
  | .statusRead => some (0x03, 0)
  | .laneTrackRead => some (0x04, 3)
  | .noticeMask => some (0x05, 1)
  | .pieceReport => some (0x06, 2)
  | .reportFlush => some (0x07, 0)
  | .clearIndications => some (0x08, 2)
  | .lineReset => some (0x09, 0)
  | .laneStart => some (0x10, 1)
  | .laneStop => some (0x11, 1)
  | .jamClear => some (0x12, 1)
  | .pieceAudit => some (0x18, 2)
  | .auditRead => some (0x19, 2)
  | .auditRelease => some (0x1A, 0)
  | .inkRefill => some (0x20, 5)
  | .dieDate => some (0x21, 5)
  | .sweepStart => some (0x28, 2)
  | .sweepDone => some (0x29, 2)
  | .countSnapshot => some (0x30, 2)
  | .tableOpen => some (0x38, 3)
  | .tableCommit => some (0x3A, 0)
  | .tableAbandon => some (0x3B, 0)
  | .tableStatusClear => some (0x3C, 0)
  | .tableSuspend => some (0x3D, 0)
  | .tableResume => some (0x3E, 0)
  | .tableLock => some (0x3F, 1)
  | .tableRead => some (0x40, 3)
  | _ => none

/-- Arguments of the right length with a field outside its stated range (R20.3, R175), by command
code. -/
def fieldOutOfRange (code : Byte) (args : List Byte) : Prop :=
  match code.toNat, args.map BitVec.toNat with
  | 0x01, [l, p, m] => l = 255 ∨ p = 255 ∨ 3 < m
  | 0x02, [sel] => 15 < sel
  | 0x04, [l, i, n] => 1 < l ∨ 23 < i ∨ n = 0 ∨ 4 < n
  | 0x06, [sw, n] => 1 < sw ∨ n = 0 ∨ 8 < n
  | 0x08, [h, _] => 7 < h
  | 0x10, [l] | 0x11, [l] | 0x12, [l] => 1 < l
  | 0x18, [h, l] => 1000 < h * 256 + l
  | 0x19, [k, n] => 3 < k ∨ 7 < n
  | 0x20, [l, h, a, b, c] => 1 < l ∨ 1 < h ∨ 1000000 < (a * 256 + b) * 256 + c
  | 0x21, [y, z, m, d, h] =>
    y * 256 + z < 2000 ∨ 2099 < y * 256 + z ∨ m = 0 ∨ 12 < m ∨ d = 0 ∨ 31 < d ∨ 23 < h
  | 0x28, [l, k] | 0x29, [l, k] => 1 < l ∨ 9 < k
  | 0x30, [g, x] => 5 < g ∨ 1 < x
  | 0x38, [t, n, ls] => 5 < t ∨ n = 0 ∨ 32 < n ∨ ls = 0 ∨ 3 < ls
  | 0x3F, [t] => t ≠ 0 ∧ t ≠ 2 ∧ t ≠ 5
  | 0x40, [t, _, n] => 5 < t ∨ n = 0 ∨ 8 < n
  | _, _ => False

/-! ### Staged entries (12.4) -/

/-- The table an entry belongs to (R161). -/
def Entry.table : Entry → Table
  | .profile _ _ | .channels _ => .ink
  | .put _ | .drop _ => .signature
  | .geometry _ _ => .geometry
  | .route _ _ _ | .levels _ _ _ => .stacker
  | .window _ | .monitor _ _ => .monitor
  | .dieCommon _ | .dieHead _ _ _ => .die

/-- The bytes of an entry after its table byte (12.4). -/
def Entry.layout : Entry → List Byte
  | .profile n p =>
    [byte n.val, byte (switchNat p.enable), byte p.channel.toNat, byte p.kind.toNat] ++ beBytes 2 p.scoreMin
      ++ beBytes 2 p.scoreMax ++ [byte p.runMin, byte p.runMax]
  | .channels c =>
    [8] ++ beBytes 2 c.floorPH ++ beBytes 2 c.floorFL ++ beBytes 2 c.runLevelPH ++ beBytes 2 c.runLevelFL ++ [0]
  | .put e =>
    [0, byte e.key.profile.val, byte e.key.width.val, byte e.key.band.val, byte e.category.val] ++ beBytes 2 e.value
      ++ [byte (switchNat e.precancel)]
  | .drop k => [1, byte k.profile.val, byte k.width.val, byte k.band.val, 0, 0, 0, 0]
  | .geometry l g =>
    [byte (laneNat l), g.scanSource.line, g.scanSource.position]
      ++ [g.minLen, g.maxLen, g.minGap, g.maxCovered, g.sampleWait, g.cornerLen, g.refSeedPH, g.refSeedFL, g.refGuard,
          g.dDecide, g.dGate, g.gateSettle, g.dHeadL, g.dHeadT, g.leadIn, g.strikeLen, g.recoverLen, g.dPocket, g.dStack,
          g.reverseLimit].flatMap (beBytes 2)
  | .route l r ks =>
    [byte (laneNat l), byte r.val, byte ks.length] ++ (ks.map fun k => byte k.val) ++ List.replicate (4 - ks.length) 0xFF
  | .levels l k v => [byte (laneNat l), byte (9 + k.val)] ++ beBytes 2 v.fullLevel ++ beBytes 2 v.hardLevel ++ [0]
  | .window n => [0] ++ beBytes 2 n ++ [0, 0]
  | .monitor m e => [byte (1 + m.toNat), byte (switchNat e.enable), byte e.limit, byte e.declareN, byte e.clearM]
  | .dieCommon c => [0] ++ c.officeCode ++ c.officeName ++ [byte c.lineNumber]
  | .dieHead l h d =>
    [byte (1 + 2 * laneNat l + headNat h)] ++ d.text ++ [byte d.inkCost] ++ beBytes 3 d.inkLow ++ List.replicate 7 0

/-- The places of an entry's unused bytes, counted from the byte after the table byte (12.4). -/
def Entry.spare : Entry → List Nat
  | .channels _ => [9]
  | .drop _ => [4, 5, 6, 7]
  | .route _ _ ks => (List.range 4).filterMap fun i => if ks.length ≤ i then some (3 + i) else none
  | .levels _ _ _ => [6]
  | .window _ => [3, 4]
  | .dieHead _ _ _ => [21, 22, 23, 24, 25, 26, 27]
  | .profile _ _ | .put _ | .geometry _ _ | .monitor _ _ | .dieCommon _ => []

/-- Every byte is a space or a printing character (R126, R176). -/
def Printable (bs : List Byte) : Prop := ∀ b ∈ bs, 0x20 ≤ b.toNat ∧ b.toNat ≤ 0x7E

/-- Every field of a Lane Geometry entry lies within its range, and its cross-checks hold (R38, R39); a
scan source byte of 0xFF is out of range by the model's reading (log entry 10). -/
structure Geometry.Allowed (g : Geometry) : Prop where
  loaded : g.loaded = true
  scanSource : g.scanSource.line ≠ 0xFF ∧ g.scanSource.position ≠ 0xFF
  eye : 200 ≤ g.minLen ∧ 50 ≤ g.minGap ∧ g.minGap ≤ 1000 ∧ g.maxLen ≤ 2000 ∧ g.maxCovered ≤ 8000
  scan : 20 ≤ g.sampleWait ∧ g.sampleWait ≤ 1000 ∧ 40 ≤ g.cornerLen ∧ g.cornerLen ≤ 400 ∧ g.cornerLen % 2 = 0
  ranges :
    g.minLen ≤ 1000 ∧ 400 ≤ g.maxLen ∧ 600 ≤ g.maxCovered ∧ g.refSeedPH ≤ 4095 ∧ g.refSeedFL ≤ 4095 ∧ g.refGuard ≤ 200
      ∧ 1000 ≤ g.dDecide ∧ g.dDecide ≤ 20000 ∧ 1200 ≤ g.dGate ∧ g.dGate ≤ 22000 ∧ g.gateSettle ≤ 2000
      ∧ 1500 ≤ g.dHeadL ∧ g.dHeadL ≤ 28000 ∧ 1500 ≤ g.dHeadT ∧ g.dHeadT ≤ 28000 ∧ g.leadIn ≤ 200
      ∧ 100 ≤ g.strikeLen ∧ g.strikeLen ≤ 1500 ∧ g.recoverLen ≤ 1000 ∧ g.dPocket ≤ 32000 ∧ g.dStack ≤ 32000
      ∧ g.reverseLimit ≤ 2000
  lengths : g.minLen < g.maxLen ∧ g.maxLen < g.maxCovered ∧ g.cornerLen ≤ g.minLen
  distances :
    g.maxLen + g.sampleWait + 100 ≤ g.dDecide ∧ g.dDecide + g.gateSettle + 200 ≤ g.dGate ∧ g.dGate < g.dHeadL
      ∧ g.dGate < g.dHeadT ∧ g.dHeadL + g.maxLen ≤ g.dPocket ∧ g.dHeadT + g.maxLen ≤ g.dPocket
      ∧ g.dPocket + 100 ≤ g.dStack

/-- Every field of an entry lies within its range and every cross-check holds, as the part stands
(R38, R39, R82, R83, R92, R126, R131, R153). -/
def Entry.Allowed (s : State) : Entry → Prop
  | .profile _ p => p.scoreMin ≤ p.scoreMax ∧ p.scoreMax ≤ 65535 ∧ p.runMin ≤ p.runMax ∧ p.runMax ≤ 200
  | .channels c =>
    c.floorPH ≤ 1023 ∧ c.floorFL ≤ 1023 ∧ 1 ≤ c.runLevelPH ∧ c.runLevelPH ≤ 4095 ∧ 1 ≤ c.runLevelFL ∧ c.runLevelFL ≤ 4095
  | .put e => e.category.val ≤ 62 ∧ e.value ≤ 65535
  | .drop _ => True
  | .geometry _ g => g.Allowed
  | .route _ r ks =>
    1 ≤ ks.length ∧ ks.length ≤ 4 ∧ ks.Nodup
      ∧ ∀ k ∈ ks, r.val < 4 ∧ k.val < 4 ∨ 4 ≤ r.val ∧ r.val < 8 ∧ 4 ≤ k.val ∧ k.val < 8 ∨ r.val = 8 ∧ 8 ≤ k.val
  | .levels l k v =>
    1 ≤ v.fullLevel ∧ v.fullLevel ≤ 2000 ∧ v.fullLevel ≤ v.hardLevel ∧ v.hardLevel ≤ 2500
      ∧ (s.pocket l k).count + (s.pocket l k).inbound ≤ v.hardLevel
  | .window n => 1000 ≤ n ∧ n ≤ 60000
  | .monitor _ e => e.limit ≤ 255 ∧ 1 ≤ e.declareN ∧ e.declareN ≤ 15 ∧ 1 ≤ e.clearM ∧ e.clearM ≤ 15
  | .dieCommon c =>
    c.officeCode.length = 6 ∧ Printable c.officeCode ∧ c.officeName.length = 20 ∧ Printable c.officeName ∧ c.lineNumber ≤ 99
      ∧ c.loaded = true
  | .dieHead _ _ d => d.text.length = 16 ∧ Printable d.text ∧ 1 ≤ d.inkCost ∧ d.inkCost ≤ 255 ∧ d.inkLow ≤ 1000000

/-! ### Slots and places -/

/-- The reservations that committed writes hold (R22). -/
def Phase.commits : Phase → Nat
  | .ready | .staging _ => 0
  | .programming _ _ | .suspended _ | .nestedStaging _ _ => 1
  | .nestedProgramming _ _ => 2

/-- Every reserved slot of the Report Queue belongs to one command that is queued, executing or
programming, and queued frames and reserved slots fit the 32 slots (R18, R22, R23). -/
structure State.SlotsBalanced (s : State) : Prop where
  fit : s.reports.queued.length + s.reports.reserved ≤ Config.reportSlots
  owned : s.reports.reserved = s.interp.queue.length + s.interp.executing.toList.length + s.store.phase.commits

/-- The FIFO, the ACT queues, the command queue, the track lists, the booking lists and the scan slots hold
no more than they have places (R9, R11, R18, R40, R73, R120); the open batch holds fewer records than
batch_level, and none while piece reporting is off (R26, R27); an open write holds no more entries than its
count, which is 32 at most (R164, R165). -/
structure State.WithinCapacity (s : State) : Prop where
  fifo : s.link.fifo.length ≤ Config.fifoDepth
  act : ∀ l, (s.link.act.get l).length ≤ Config.actDepth
  commands : s.interp.queue.length ≤ Config.commandDepth
  list : ∀ l, (s.lane l).list.length ≤ Config.listDepth
  booking : ∀ l h, (s.head l h).booking.length ≤ Config.bookingDepth
  slots : s.slotsHeld ≤ Config.scanSlots
  batch : s.reports.batch.length < s.reports.batchLevel ∧ s.reports.batchLevel ≤ 8
  unreported : s.classOn .piece = false → s.reports.batch = []
  staged : ∀ w, s.store.phase.open? = some w → w.received.length ≤ w.count ∧ w.count ≤ 32

/-! ### Scans -/

/-- A scan that the decision point, a jam or a reset still ends: COLLECTING, SLOT_WAIT or QUEUED (R74 to
R76). -/
def ScanState.pending : ScanState → Prop
  | .collecting | .slotWait | .queued => True
  | .scoring | .scored | .failed _ => False

/-- Each SLOT_WAIT record stands once in the slot wait list, each QUEUED record has one job in its lane's
scoring queue, the one SCORING record has the engine's, and lists and queues hold nothing else (R70, R71,
R73, R79). A record that waits or is queued has its length (R69); a decided record, or one of a lane that
does not move, waits for nothing more (R74, R75); and the record under a COVERED eye has no length (R49,
R53). -/
structure State.ScansRight (s : State) : Prop where
  distinct : ∀ l, ((s.lane l).list.map Piece.tag).Nodup
  waitOnce : s.scan.waitList.Nodup
  waiting : ∀ l tag, (l, tag) ∈ s.scan.waitList ↔ ∃ p ∈ (s.lane l).list, p.tag = tag ∧ p.scan = .slotWait
  jobOnce : ∀ l, ((s.scorer.queues.get l).map Job.tag).Nodup
  queued :
    ∀ l tag, tag ∈ (s.scorer.queues.get l).map Job.tag ↔ ∃ p ∈ (s.lane l).list, p.tag = tag ∧ p.scan = .queued
  scoring :
    ∀ l, ∀ p ∈ (s.lane l).list, p.scan = .scoring → ∃ j, s.scorer.engine = some j ∧ j.lane = l ∧ j.tag = p.tag
  measured : ∀ l, ∀ p ∈ (s.lane l).list, p.scan = .slotWait ∨ p.scan = .queued → p.length.isSome = true
  decided : ∀ l, ∀ p ∈ (s.lane l).list, p.decisionTaken = true → ¬p.scan.pending
  resting : ∀ l, (s.lane l).active = false → ∀ p ∈ (s.lane l).list, ¬p.scan.pending
  covered : ∀ l st p, (s.lane l).eye = .covered st → (s.lane l).list.getLast? = some p → p.length = none

/-! ### Band rings -/

/-- A band ring is in its one form: entry numbers strictly rising, each below 1,024 (R63). -/
def Ring.canonical (r : Ring) : Prop :=
  r.Pairwise (fun x y => x.1 < y.1) ∧ ∀ e ∈ r, e.1 < Config.ringSize

/-- Every band ring of both lanes is in its one form. -/
def State.RingsCanonical (s : State) : Prop := ∀ l b, Ring.canonical ((s.lane l).rings.get b)

/-! ### The Signature Table -/

/-- An entry that changes the Signature Table. -/
def Entry.onSignature : Entry → Bool
  | .put _ | .drop _ => true
  | _ => false

/-- The entries that are still to be applied, of the outer write and of the nested one (R168). -/
def Phase.outerTodo : Phase → List Entry
  | .ready | .staging _ => []
  | .programming p _ | .suspended p | .nestedStaging p _ | .nestedProgramming p _ => p.todo

/-- The entries of a nested write that are still to be applied. -/
def Phase.nestedTodo : Phase → List Entry
  | .nestedProgramming _ q => q.todo
  | _ => []

/-- The table of the nested write that is being staged, if there is one. -/
def Phase.nestedTable : Phase → Option Table
  | .nestedStaging _ w => some w.table
  | _ => none

/-- The Signature Table is in strictly ascending key order with at most 256 entries (R92), and the
entries that wait to be applied keep it so: DROPs stand before PUTs, no key stands twice, what they
add fits, and a nested write leaves the table alone (R167, R168, R170). -/
structure Store.SignatureSound (k : Store) : Prop where
  ordered : k.tables.signature.Pairwise fun x y => x.key.rank < y.key.rank
  size : k.tables.signature.length ≤ Config.signatureCapacity
  dropsFirst : k.phase.outerTodo.Pairwise fun x y => y.isDrop = true → x.isDrop = true
  keys : (k.phase.outerTodo.map Entry.key).Nodup
  room : fits k.tables.signature k.phase.outerTodo = true
  nested : ∀ e ∈ k.phase.nestedTodo, e.onSignature = false
  nestedTable : k.phase.nestedTable ≠ some .signature

/-! ### Ink -/

/-- A head's reserved ink is the sum of the costs of its booked strikes and lies within its units
(R125); a strike that has started costs nothing more, and no record is booked twice (R121). -/
structure Head.InkBalanced (h : Head) : Prop where
  sum : h.reserved = (h.booking.map Strike.cost).sum
  covered : h.reserved ≤ h.units
  spent : ∀ k ∈ h.booking, k.started = true → k.cost = 0
  once : (h.booking.map Strike.tag).Nodup

/-- Every head's ink is balanced (R125). -/
def State.InkBalanced (s : State) : Prop := ∀ l h, (s.head l h).InkBalanced

/-! ### Counts -/

/-- CAPTURED is the list size plus the fifteen disposition counters (R147). -/
def LaneS.Balanced (x : LaneS) : Prop := x.counters.captured = x.list.length + x.counters.dispositions.toList.sum

/-- The records of a lane carry different tags (R40). -/
def LaneS.TagsDistinct (x : LaneS) : Prop := (x.list.map Piece.tag).Nodup

/-- A record whose decision point has been taken has a disposition (R104). -/
def LaneS.Decided (x : LaneS) : Prop := ∀ p ∈ x.list, p.decisionTaken = true → p.disposition.isSome = true

/-! ### Pockets -/

/-- A pocket's inbound is the number of the lane's records that have it, and a pocket that waits for
its sweep still has some (R133, R138, R140). -/
def LaneS.InboundRight (x : LaneS) : Prop :=
  ∀ k, (x.pockets.get k).inbound = (x.list.filter fun p => p.pocket == some k).length
    ∧ ((x.pockets.get k).state = .sweepWait → 0 < (x.pockets.get k).inbound)

/-! ### What every step keeps of a lane -/

/-- The records of a lane carry different tags, and every booked strike is that of a record of the list
that has been decided (R40, R119, R123). -/
structure LaneS.StrikesOwned (x : LaneS) : Prop where
  distinct : x.TagsDistinct
  owned : ∀ h, ∀ k ∈ (x.heads.get h).booking, ∃ p ∈ x.list, p.tag = k.tag ∧ p.decisionTaken = true

/-- The counters, tags, dispositions and pockets of a lane's list agree (R40, R104, R133, R147): a
record whose pocket point has not been taken has no pocket (R135). -/
structure LaneS.CountsRight (x : LaneS) : Prop where
  balanced : x.Balanced
  distinct : x.TagsDistinct
  decided : x.Decided
  pocketless : ∀ p ∈ x.list, p.pocketTaken = false → p.pocket = none
  inbound : x.InboundRight

/-- No pocket holds more than its hard_level, with what is on its way to it (R133): no level pair, held or
waiting to be applied, has its full_level above its hard_level (R131). -/
structure State.PocketsFit (s : State) : Prop where
  ordered : ∀ l k, ((s.stackerMap l).levels.get k).fullLevel ≤ ((s.stackerMap l).levels.get k).hardLevel
  waiting :
    ∀ e ∈ s.store.phase.outerTodo ++ s.store.phase.nestedTodo, ∀ l k v, e = .levels l k v → v.fullLevel ≤ v.hardLevel
  held : ∀ l k, (s.pocket l k).count + (s.pocket l k).inbound ≤ ((s.stackerMap l).levels.get k).hardLevel

/-- What holds in each lane state (R44, R45, R49, R154, R159): the feed rate, the list of a STOPPED lane,
and the eye, window and forward mark. -/
structure LaneS.StateHolds (x : LaneS) : Prop where
  rate :
    x.feedRate
      = if x.state = .running then
          if x.monitors.late.declared = true ∨ x.monitors.shingle.declared = true ∨ 20 ≤ x.list.length then .slow else .full
        else .hold
  stopped : x.state = .stopped → x.list = []
  resting : x.active = false → x.eye = .idle ∧ x.window = none ∧ x.forwardMark = none
  moving : x.active = true → x.eye ≠ .idle ∧ x.window ≠ none ∧ x.forwardMark ≠ none

/-- The leads of a lane's list ascend strictly: each record's lies beyond every older one's (R40). -/
def LaneS.LeadsAscend (x : LaneS) : Prop := x.list.Pairwise fun p q => beyond q.lead p.lead = true

/-- While a lane is RUNNING, no record's lead is a quarter of the range of positions or more away from its
belt position: records are retired within some 60,000 steps (R39). -/
def LaneS.LeadsNear (x : LaneS) : Prop :=
  x.state = .running → ∀ p ∈ x.list, (signedDistance x.belt p.lead).natAbs < 4194304

/-- No record of the list carries the tag that the next capture takes: none has outlasted 65,535 later
captures (R40). -/
def LaneS.TagFree (x : LaneS) : Prop := ∀ p ∈ x.list, p.tag ≠ x.nextTag

/-- The steps that take every lane to STOPPED (R34, R35). -/
def resets : Instr → Bool
  | .powerOn | .resetInput | .lineReset => true
  | _ => false

end Sys2Proof.Machine
end

