-- ==== Sys2Proof/Certificates/Slice0/Obligations.lean ====
section
/-! DEFINITION. The statements for the provers. Each docstring names the rules it formalises. -/

open Sys2Proof Sys2Proof.Machine

/-! ### Steps and the queue -/

/-- The step at the front of the queue is run with the queue's rest; an empty queue idles, which is
the model's choice (log entry 1). -/
def Obligations.StepRunsFrontOfQueue : Prop :=
  (∀ (i : Instr) (rest : List Instr) (s : State), s.pending = i :: rest → step s = exec i { s with pending := rest })
    ∧ ∀ s : State, s.pending = [] → step s = .next s

/-- Every step answers a next state, whatever the state, and leaves the queue of waiting steps as it
is: no step of the part faults or is refused. -/
def Obligations.EveryStepGoesOnAndKeepsQueue : Prop :=
  ∀ (i : Instr) (s : State), ∃ t, exec i s = .next t ∧ t.pending = s.pending

/-! ### The checks of every command -/

/-- R20, tests 1 to 3, and R175: an unknown code and a wrong payload length are answered BAD_COMMAND, a
field outside its stated range BAD_ARGUMENT, and the part's state stays as it was. The lengths of
TABLE_FILL have their own statement. That a switch byte is 0 or 1, and that the lane set of TABLE_OPEN is
tested for every table, are the model's readings (log entries 6 and 11). -/
def Obligations.FailedChecksLeaveThePartAlone : Prop :=
  ((∀ (s : State) (c : Cmd), Executing s c.code c → c.code ∉ commandCodes →
      Completes .unknownCommand s c s .badCommand [])
    ∧ ∀ (i : Instr) (code : Byte) (n : Nat) (s : State) (c : Cmd), commandOf i = some (code, n) → Executing s code c →
      c.args.length ≠ n → Completes i s c s .badCommand [])
    ∧ (∀ (i : Instr) (code : Byte) (n : Nat) (s : State) (c : Cmd), commandOf i = some (code, n) → Executing s code c →
    fieldOutOfRange code c.args → Completes i s c s .badArgument [])

/-! ### Commands of the Link Port -/

/-- R15: LINK_ADDRESS replaces station address and compare mode, and its response carries the new address;
a byte 0xFF or a mode past BOTH is BAD_ARGUMENT. R16: LINK_COUNTERS_CLEAR answers the four counters as
they stood and clears the chosen ones. -/
def Obligations.LinkCommandsReplaceAndClear : Prop :=
  (∀ (s : State) (c : Cmd) (l p m : Byte), Executing s 0x01 c → c.args = [l, p, m] →
    (∀ mode : CompareMode, l ≠ 0xFF#8 → p ≠ 0xFF#8 → m.toNat = mode.toNat →
        Completes .linkAddress s c { s with link := { s.link with station := ⟨l, p⟩, mode := mode } } .done [])
      ∧ (l = 0xFF#8 ∨ p = 0xFF#8 ∨ 3 < m.toNat → Completes .linkAddress s c s .badArgument []))
    ∧ (∀ (s : State) (c : Cmd) (sel : Byte), Executing s 0x02 c → c.args = [sel] → sel.toNat < 16 →
    Completes .linkCountersClear s c
      { s with
        link :=
          { s.link with
            counters :=
              { checkErrors := if sel.getLsbD 0 then 0 else s.link.counters.checkErrors
                formatErrors := if sel.getLsbD 1 then 0 else s.link.counters.formatErrors
                kindUnknown := if sel.getLsbD 2 then 0 else s.link.counters.kindUnknown
                passDrops := if sel.getLsbD 3 then 0 else s.link.counters.passDrops } } }
      .done
      (beBytes 2 s.link.counters.checkErrors ++ beBytes 2 s.link.counters.formatErrors
        ++ beBytes 2 s.link.counters.kindUnknown ++ beBytes 2 s.link.counters.passDrops))

/-! ### Reads -/

/-- R32: STATUS_READ changes nothing and answers the status block, 88 bytes with every field of 12.2 at its
place. What stands for an absent table and the bits of the monitors are the model's readings (log entries
5 and 16). -/
def Obligations.StatusReadAnswersStatusBlock : Prop :=
  ∀ (s : State) (c : Cmd), Executing s 0x03 c → c.args = [] →
    Completes .statusRead s c s .done s.statusBlock
      ∧ s.statusBlock.length = 88
      ∧ s.statusBlock.take 8
        = [byte s.lanes.a.state.toNat, byte s.lanes.a.eye.toNat, byte s.lanes.a.list.length, byte s.lanes.a.feedRate.toNat,
            byte s.lanes.b.state.toNat, byte s.lanes.b.eye.toNat, byte s.lanes.b.list.length, byte s.lanes.b.feedRate.toNat]
      ∧ (s.statusBlock.drop 8).take 2 = [byte s.store.phase.toNat, byte s.store.flags.toNat]
      ∧ (s.statusBlock.drop 10).take 3
        = (match s.store.phase with
          | .ready | .staging _ => [0xFF, 0, 0]
          | .programming p _ | .suspended p | .nestedStaging p _ | .nestedProgramming p _ =>
            [byte p.table.toNat, byte p.applied, byte p.total])
      ∧ (∀ l,
        let x := (s.lane l).monitors
        s.statusBlock[13 + laneNat l]?
          = some
            (byte
              ((if x.reject.declared then 1 else 0) + (if x.late.declared then 2 else 0)
                + (if x.shingle.declared then 4 else 0) + if x.reference.declared then 8 else 0)))
      ∧ (∀ l h,
        let x := s.head l h
        let die := s.store.tables.dieCommon.loaded && s.date.isSome
        (s.statusBlock.drop (15 + 14 * laneNat l + 7 * headNat h)).take 7
          = byte ((if x.fault then 1 else 0) + (if die then 0 else 2) + if x.ink then 4 else 0)
            :: beBytes 3 x.units ++ beBytes 3 x.reserved)
      ∧ (∀ l (k : Fin 10), s.statusBlock[43 + 10 * laneNat l + k.val]? = some (byte (s.pocket l k).state.toNat))
      ∧ (s.statusBlock.drop 63).take 5
        = [s.link.station.line, s.link.station.position, byte s.link.mode.toNat, s.link.controller.line,
            s.link.controller.position]
      ∧ (s.statusBlock.drop 68).take 8
        = beBytes 2 s.link.counters.checkErrors ++ beBytes 2 s.link.counters.formatErrors
          ++ beBytes 2 s.link.counters.kindUnknown ++ beBytes 2 s.link.counters.passDrops
      ∧ s.statusBlock.drop 76
        = [byte s.reports.mask.toNat, byte s.reports.batchLevel, byte s.reports.batch.length]
          ++ beBytes 2 s.reports.nextSerial.toNat
          ++ [byte s.reports.queued.length, byte s.reports.reserved, byte s.interp.queue.length]
          ++ beBytes 2 s.reports.latches.toNat ++ beBytes 2 s.reports.noticeLost

/-- R33: LANE_TRACK_READ answers the records at positions index to index + count − 1 that exist, 35
bytes each with every field of 12.2 at its place, and how many they are; the command changes nothing. What
an absent field reads as is the model's reading (log entry 5), and the numbers of the finding results are
too (log entry 21). -/
def Obligations.LaneTrackReadAnswersRecords : Prop :=
  (∀ p : Piece,
      let r := trackRecord p
      let bit := fun (b : Bool) (n : Nat) => if b then n else 0
      let one := fun (x : Option Nat) => match x with | none => (0xFF#8 : Byte) | some n => byte n
      r.length = 35
        ∧ r.take 8
          = beBytes 2 p.tag.toNat ++ beBytes 3 p.lead.toNat ++ beBytes 2 (p.length.getD 0)
            ++ [byte
                (bit p.shingled 1 + bit p.overlength 2 + bit p.lateFound 4 + bit p.staleRef 8 + bit p.multi 16
                  + bit p.strikeStart.isSome 32)]
        ∧ (r.drop 8).take 2
          = [byte p.scan.toNat, match p.scan with | .failed .late => 0 | .failed .withdrawn => 1 | .failed .jam => 2 | _ => 0xFF]
        ∧ (p.finding = none → (r.drop 10).take 13 = [0xFF, 0xFF, 0xFF, 0xFF, 0, 0, 0xFF, 0, 0, 0xFF, 0, 0, 0xFF])
        ∧ (∀ f, p.finding = some f →
          (∀ h, f.result = .hit h →
              (r.drop 10).take 10
                = [3, byte h.corner.toNat, byte h.profile.val, byte h.kind.toNat] ++ beBytes 2 h.score ++ [byte h.run]
                  ++ beBytes 2 h.stampStart ++ [one (h.category.map Fin.val)])
            ∧ ((∀ h, f.result ≠ .hit h) →
              (r.drop 10).take 10 = [byte f.result.toNat, 0xFF, 0xFF, 0xFF, 0, 0, 0xFF, 0, 0, 0xFF]
                ∧ (f.result = .noData → f.result.toNat = 0) ∧ (f.result = .noMark → f.result.toNat = 1)
                ∧ (f.result = .ambiguous → f.result.toNat = 2))
            ∧ (r.drop 20).take 3
              = beBytes 2 f.value ++ [byte (bit f.precancel 1 + bit f.multi 2 + bit f.staleRef 4)])
        ∧ (r.drop 23).take 3
          = [one (p.gate.map GateSetting.toNat), one (p.stream.map Stream.toNat), one (p.route.map RouteClass.toNat)]
        ∧ (r.drop 26).take 2
          = [byte p.cancel.toNat,
            match p.cancel with | .suppressed .ink => 0 | .suppressed .die => 1 | .suppressed .fault => 2 | _ => 0xFF]
        ∧ r.drop 28
          = beBytes 3 (match p.strikeStart with | none => 0 | some q => q.toNat)
            ++ [one (p.pocket.map Fin.val), one (p.disposition.map fun d => d.index.val)] ++ beBytes 2 p.value)
    ∧ ∀ (s : State) (c : Cmd) (l : Lane) (i n : Nat), Executing s 0x04 c → i ≤ 23 → 1 ≤ n → n ≤ 4 →
      c.args = [byte (laneNat l), byte i, byte n] →
        Completes .laneTrackRead s c s .done
          ([byte (laneNat l), byte i, byte (min n ((s.lane l).list.length - i))]
            ++ (((s.lane l).list.drop i).take n).flatMap trackRecord)

/-- R78: AUDIT_READ of an empty store is WRONG_STATE; of a full one it answers the chosen corner and chunk,
up to 25 samples, and leaves the store full; AUDIT_RELEASE empties it. R77: PIECE_AUDIT sets the interval
and both audit counters, and leaves the store. The audit block has every field of 12.2 at its place; whose
result and corner it carries, and the numbers of its result and of its void flag, are the model's readings
(log entries 9, 21 and 6). -/
def Obligations.AuditCommandsReadAndSet : Prop :=
  (∀ (s : State) (c : Cmd) (k : Corner) (n : Nat), Executing s 0x19 c → n ≤ 7 → c.args = [byte k.toNat, byte n] →
    (s.scan.auditStore = none → Completes .auditRead s c s .wrongState [])
      ∧ ∀ t : Audit, s.scan.auditStore = some t →
        Completes .auditRead s c s .done (t.block k n)
          ∧ (t.block k n).length = 23 + 4 * min 25 ((t.windows.get k).length - 25 * n)
          ∧ (let r := t.corners.get k
            let refs := match k with | .c1 => t.refs.aTop | .c2 => t.refs.aBottom | .c3 => t.refs.bTop | .c4 => t.refs.bBottom
            let results := fun (x : ChannelResult) => beBytes 2 x.score ++ [byte x.run, byte x.first, byte x.missing]
            (t.block k n).take 23
              = [byte (laneNat t.lane)] ++ beBytes 2 t.tag.toNat
                ++ [byte t.m, byte t.result.toNat, match t.result with | .hit h => byte h.corner.toNat | _ => 0xFF]
                ++ beBytes 2 refs.ph ++ beBytes 2 refs.fl ++ results r.ph ++ results r.fl
                ++ [if r.isVoid then 1 else 0, match r.hit with | some i => byte i.val | none => 0xFF,
                  byte (min 25 ((t.windows.get k).length - 25 * n))])
          ∧ (t.block k n).drop 23
            = (((t.windows.get k).drop (25 * n)).take 25).flatMap fun x =>
              match x with
              | some y => beBytes 2 y.ph ++ beBytes 2 y.fl
              | none => [0xFF, 0xFF, 0xFF, 0xFF])
    ∧ ((∀ (s : State) (c : Cmd) (n : Nat), Executing s 0x18 c → n ≤ 1000 → c.args = beBytes 2 n →
      Completes .pieceAudit s c
        { s with
          scan := { s.scan with auditInterval := n }
          lanes := ⟨{ s.lanes.a with auditCounter := 0 }, { s.lanes.b with auditCounter := 0 }⟩ }
        .done [])
    ∧ ∀ (s : State) (c : Cmd), Executing s 0x1A c → c.args = [] →
      Completes .auditRelease s c { s with scan := { s.scan with auditStore := none } } .done [])

/-- R172: TABLE_READ answers, in every store state, the entries of a table at the indices that exist,
the number carried and the number of indices; it changes nothing. Each row is its status, its table byte
and the entry that would write its record, and the common record of the Die Table has the date after it.
That a loaded flag is 0 or 1 is presumed (log entry 6). -/
def Obligations.TableReadAnswersEntries : Prop :=
  ∀ (s : State) (c : Cmd) (t : Table) (first n : Nat), Executing s 0x40 c → first ≤ 255 → 1 ≤ n → n ≤ 8 →
    c.args = [byte t.toNat, byte first, byte n] →
      Completes .tableRead s c s .done
          ([byte t.toNat, byte first, byte (min n ((s.tableRows t).length - first))] ++ beBytes 2 (s.tableRows t).length
            ++ (((s.tableRows t).drop first).take n).flatten)
        ∧ s.tableRows t
          = (let k := s.store.tables
            let plain := fun (e : Entry) => 0 :: byte e.table.toNat :: e.layout
            match t with
            | .ink => (List.finRange 8).map (fun n => plain (.profile n (k.profiles.get n))) ++ [plain (.channels k.channels)]
            | .signature => k.signature.map fun e => plain (.put e)
            | .geometry =>
              [Lane.a, .b].map fun l =>
                (if (k.geometry.get l).loaded then 1 else 0) :: 2 :: (Entry.geometry l (k.geometry.get l)).layout
            | .stacker =>
              [Lane.a, .b].flatMap fun l =>
                (List.finRange 9).map (fun r => plain (.route l r ((k.stacker.get l).routes.get r)))
                  ++ (List.finRange 10).map fun n => plain (.levels l n ((k.stacker.get l).levels.get n))
            | .monitor =>
              plain (.window k.monitor.winLen)
                :: [MonitorId.reject, .late, .shingle, .reference].map fun m => plain (.monitor m (k.monitor.monitors.get m))
            | .die =>
              ((if k.dieCommon.loaded then 1 else 0) :: 5 :: (Entry.dieCommon k.dieCommon).layout
                  ++ (match s.date with
                    | none => [0, 0, 0, 0, 0]
                    | some d => beBytes 2 d.year ++ [byte d.month, byte d.day, byte d.hour]))
                :: [(Lane.a, HeadId.l), (.a, .t), (.b, .l), (.b, .t)].map fun x =>
                  plain (.dieHead x.1 x.2 ((k.dieHeads.get x.1).get x.2)))
        ∧ (s.tableRows t).length
          = (match t with
            | .ink => 9
            | .signature => s.store.tables.signature.length
            | .geometry => 2
            | .stacker => 38
            | .monitor => 5
            | .die => 5)

/-! ### Reports and indications -/

/-- R25: NOTICE_MASK closes the open batch when it turns PIECE off, replaces the mask, and answers the mask
as it stood. R27: PIECE_REPORT closes the batch while it turns piece reporting off, takes the setting and
batch_level, and closes a batch that already holds batch_level records; REPORT_FLUSH closes the batch.
Every PIECE notice stands before the response. That off is 0 and on is 1 is presumed (log entry 6). -/
def Obligations.MaskAndBatchCommandsCloseTheBatch : Prop :=
  (∀ (s : State) (c : Cmd) (m : Byte), Executing s 0x05 c → c.args = [m] →
    (s.reports.mask.getLsbD 7 = true ∧ m.getLsbD 7 = false →
        CompletesAfter .noticeMask s c s.batchFrames
          { s.batchClosed with reports := { s.batchClosed.reports with mask := m } } .done [s.reports.mask])
      ∧ (s.reports.mask.getLsbD 7 = false ∨ m.getLsbD 7 = true →
        Completes .noticeMask s c { s with reports := { s.reports with mask := m } } .done [s.reports.mask]))
    ∧ ((∀ (s : State) (c : Cmd) (n : Nat), Executing s 0x06 c → 1 ≤ n → n ≤ 8 →
      (c.args = [0, byte n] → s.reports.mask.getLsbD 7 = true →
          CompletesAfter .pieceReport s c s.batchFrames
            { s.batchClosed with
              reports := { s.batchClosed.reports with mask := s.reports.mask &&& 0x7F#8, batchLevel := n } } .done [])
        ∧ (c.args = [0, byte n] → s.reports.mask.getLsbD 7 = false →
          Completes .pieceReport s c { s with reports := { s.reports with batchLevel := n } } .done [])
        ∧ (c.args = [1, byte n] →
          let u := { s with reports := { s.reports with mask := s.reports.mask ||| 0x80#8, batchLevel := n } }
          (n ≤ s.reports.batch.length → CompletesAfter .pieceReport s c u.batchFrames u.batchClosed .done [])
            ∧ (s.reports.batch.length < n → Completes .pieceReport s c u .done [])))
    ∧ ∀ (s : State) (c : Cmd), Executing s 0x07 c → c.args = [] →
      CompletesAfter .reportFlush s c s.batchFrames s.batchClosed .done [])

/-- R30: CLEAR_INDICATIONS answers every latch and NOTICE_LOST as they stood and clears the chosen latches,
NOTICE_LOST with its own. R31: ALERT is driven exactly while some indication latch is set, and is
released at power-on. -/
def Obligations.IndicationsAreClearedAndDriveAlert : Prop :=
  (∀ (s : State) (c : Cmd) (sel : BitVec 11), Executing s 0x08 c → c.args = beBytes 2 sel.toNat →
    Completes .clearIndications s c
      { s with
        reports :=
          { s.reports with
            latches := s.reports.latches &&& ~~~sel
            noticeLost := if sel.getLsbD 9 then 0 else s.reports.noticeLost } }
      .done (beBytes 2 s.reports.latches.toNat ++ beBytes 2 s.reports.noticeLost))
    ∧ ((∀ s : State, s.alert = true ↔ ∃ x : Latch, s.latched x = true) ∧ State.reset.alert = false)

/-- R24: a notice of a class is built when its class is on; it takes the next serial, and is queued in
a free slot or lost, with NOTICE_LOST and its latch. -/
def Obligations.NoticeIsQueuedOrLost : Prop :=
  ∀ (s : State) (k : NoticeClass) (m : NoticeMsg), s.FramesFiled →
    (s.notice k m).quiet = (s.noted k).quiet ∧ (s.notice k m).reportTraffic = s.reportTraffic ++ s.noticeFrames k m
      ∧ (∀ l, (s.notice k m).actTraffic l = s.actTraffic l) ∧ (s.notice k m).passTraffic = s.passTraffic

/-! ### Power-on and the line reset -/

/-- Power-on gives every piece of state its initial value (R17, R35, R61, R76, R79, R80, R102, R115, R130,
R152, R161, R163), the tables included (R38, R82, R83, R92, R126, R131, R153). The levels of the inputs
and the model's own fields stay (log entries 1 to 3). -/
def Obligations.PowerOnTakesInitialValues : Prop :=
  ((∀ s : State,
      exec .powerOn s
        = .next
          { State.reset with
            lanes :=
              ⟨{ State.reset.lanes.a with eyeCovered := s.lanes.a.eyeCovered },
                { State.reset.lanes.b with eyeCovered := s.lanes.b.eyeCovered }⟩
            resetActive := s.resetActive, freeCount := s.freeCount, pending := s.pending })
    ∧ State.reset.link
      = { station := ⟨0, 0⟩, mode := .nothing, controller := ⟨0xFF, 0xFF⟩, counters := ⟨0, 0, 0, 0⟩, fifo := [], act := ⟨[], []⟩
          lastAct := .b, lastGrant := .report, sending := none }
    ∧ State.reset.interp = ⟨[], none⟩
    ∧ State.reset.reports
      = { queued := [], reserved := 0, batch := [], batchLevel := 8, mask := 0x7F, nextSerial := 0, noticeLost := 0
          latches := 0 }
    ∧ (∀ l,
      let x := State.reset.lane l
      x.state = .stopped ∧ x.eye = .idle ∧ x.belt = 0 ∧ x.list = [] ∧ x.nextTag = 0 ∧ x.forwardMark = none
        ∧ (∀ b, x.rings.get b = [] ∧ x.highMarks.get b = none ∧ x.refs.get b = ⟨0, 0⟩) ∧ x.auditCounter = 0
        ∧ x.gate = ⟨.pass, 0⟩
        ∧ (∀ h,
          x.heads.get h = { booking := [], freePos := 0, units := 0, reserved := 0, fault := false, ink := true })
        ∧ (∀ k,
          x.pockets.get k = { state := .opened, count := 0, inbound := 0, valueSum := 0, firstTag := none, lastTag := none })
        ∧ (∀ n ∈ x.counters.values, n = 0) ∧ x.window = none
        ∧ (∀ m, x.monitors.get m = { declared := false, badRun := 0, goodRun := 0 }) ∧ x.feedRate = .hold)
    ∧ State.reset.scan = { waitList := [], auditInterval := 0, auditStore := none }
    ∧ State.reset.scorer = { queues := ⟨[], []⟩, engine := none, lastServed := .b }
    ∧ (∀ c, State.reset.categories.get c = ⟨0, 0⟩)
    ∧ State.reset.store.phase = .ready ∧ State.reset.store.flags = 0 ∧ State.reset.store.lockInk = false
    ∧ State.reset.store.lockGeometry = false ∧ State.reset.store.lockDie = false ∧ State.reset.date = none)
    ∧ (let t := State.reset.store.tables
  (∀ n, t.profiles.get n
      = { enable := false, channel := .ph, kind := .stamp, scoreMin := 0, scoreMax := 0, runMin := 0, runMax := 0 })
    ∧ t.channels = ⟨0, 0, 0, 0⟩ ∧ t.signature = []
    ∧ (∀ l, (t.geometry.get l).loaded = false ∧ (t.geometry.get l).scanSource = ⟨0, 0⟩ ∧ ∀ n ∈ (t.geometry.get l).fields, n = 0)
    ∧ (∀ l, (∀ r, (t.stacker.get l).routes.get r = []) ∧ ∀ k, (t.stacker.get l).levels.get k = ⟨500, 550⟩)
    ∧ t.monitor.winLen = 10000 ∧ (∀ m, t.monitor.monitors.get m = ⟨false, 0, 1, 1⟩)
    ∧ t.dieCommon = ⟨List.replicate 6 0x20#8, List.replicate 20 0x20#8, 0, false⟩
    ∧ ∀ l h, (t.dieHeads.get l).get h = ⟨List.replicate 16 0x20#8, 1, 0⟩)

/-- R34, R35, R61: the RESET input takes one line reset at each change to active, LINE_RESET takes one
and then answers DONE; every block takes its line reset values, the frames that waited are gone but
for those passing through, and SAFE with its FEED HOLD is placed for both lanes. -/
def Obligations.LineResetTakesResetValues : Prop :=
  ∀ s : State, s.FramesFiled → (∀ l, (s.lane l).InboundRight) →
    (s.resetActive = false →
        ∃ t, exec .resetInput s = .next t ∧ t.quiet = { s.afterReset with resetActive := true }.quiet
          ∧ t.reportTraffic = s.link.sendingOwn.filter OutFrame.isReport
          ∧ (∀ l, t.actTraffic l = s.link.sendingOwn.filter (OutFrame.forLane l) ++ s.resetActs l)
          ∧ t.passTraffic = s.passTraffic)
      ∧ (s.resetActive = true → exec .resetInput s = .next s)
      ∧ exec .resetInactive s = .next { s with resetActive := false }
      ∧ ∀ c, Executing s 0x09 c → c.args = [] →
        ∃ t, exec .lineReset s = .next t ∧ t.quiet = s.afterReset.quiet
          ∧ t.reportTraffic = s.link.sendingOwn.filter OutFrame.isReport ++ [s.response c .done []]
          ∧ (∀ l, t.actTraffic l = s.link.sendingOwn.filter (OutFrame.forLane l) ++ s.resetActs l)
          ∧ t.passTraffic = s.passTraffic

/-! ### Units and frames -/

/-- R1 to R3: the units that pass the reception tests are exactly the frames of at most 255 payload bytes
as the part writes them, and a passing unit is read as what was written. R2 and its tip: the check of
"123456789" is 0x29B1, and the check run over any bytes together with their own check is 0. R10, 12.1 and
12.3: the bytes of a frame, its header and check included, and of every ACT frame, NOTICE and RESPONSE of
the part's own; an ACT frame goes to every position of the station's line. What an absent field of a PIECE
record reads as is given by R174; that a head's condition and a monitor's state are 0 or 1 is the model's
reading (log entry 16). -/
def Obligations.ReceivedUnitIsTheFrameItSpells : Prop :=
  ((∀ (d s : Station) (k : Byte) (p : List Byte), p.length ≤ 255 →
      receive (frameBytes d s k p) = .wellFormed { dest := d, src := s, kind := k, payload := p })
    ∧ ∀ (u : List Byte) (f : RxFrame), receive u = .wellFormed f →
      u = frameBytes f.dest f.src f.kind f.payload ∧ f.payload.length ≤ 255)
    ∧ (crc [0x31, 0x32, 0x33, 0x34, 0x35, 0x36, 0x37, 0x38, 0x39] = 0x29B1#16 ∧ ∀ bs : List Byte, crc (bs ++ checkBytes bs) = 0)
    ∧ (∀ (d s : Station) (k : Byte) (p : List Byte),
      let head := [d.line, d.position, s.line, s.position, k, byte p.length] ++ p
      frameBytes d s k p = head ++ beBytes 2 (crc head).toNat)
    ∧ (∀ (s : State) (l : Lane) (m : ActMsg),
      s.actFrame l m = { dest := ⟨s.link.station.line, 0xFF⟩, src := s.link.station, body := .act l m })
    ∧ ∀ (d s : Station),
      let tag := fun (t : Tag) => beBytes 2 t.toNat
      let pos := fun (q : Pos) => beBytes 3 q.toNat
      let one := fun (x : Option Nat) => match x with | none => (0xFF#8 : Byte) | some n => byte n
      let flag := fun (b : Bool) => if b then (1#8 : Byte) else 0
      (∀ (l : Lane) (m : ActMsg),
          let ln := byte (laneNat l)
          OutFrame.bytes ⟨d, s, .act l m⟩
            = frameBytes d s 0x31
              (match m with
              | .gate t g e st => [1, ln] ++ tag t ++ [byte g.toNat] ++ pos e ++ pos st
              | .divert t to' e r => [2, ln] ++ tag t ++ [byte to'.toNat] ++ pos e ++ pos r
              | .strike h t e st c =>
                [3, ln, byte (headNat h)] ++ tag t ++ pos e ++ pos st ++ c.officeCode ++ c.officeName
                  ++ [byte c.lineNumber] ++ beBytes 2 c.date.year ++ [byte c.date.month, byte c.date.day, byte c.date.hour]
                  ++ c.text
              | .pocket t k e r => [4, ln] ++ tag t ++ [byte k.val] ++ pos e ++ pos r
              | .feed r => [5, ln, byte r.toNat]
              | .safe => [6, ln]))
        ∧ (∀ (c n : Byte) (rc : ResponseCode) (data : List Byte),
          OutFrame.bytes ⟨d, s, .response c n rc data⟩
            = frameBytes d s 0x22 ([c, n, byte rc.toNat] ++ if rc = .done then data else []))
        ∧ ∀ (sr : BitVec 16) (m : NoticeMsg),
          let record := fun (type : Byte) (bs : List Byte) => frameBytes d s 0x23 (type :: beBytes 2 sr.toNat ++ bs)
          OutFrame.bytes ⟨d, s, .notice sr m⟩
            = match m with
              | .lane l x y n => record 1 [byte (laneNat l), byte x.toNat, byte y.toNat, byte n]
              | .jam l c x q n => record 2 ([byte (laneNat l), byte c.toNat, byte x.toNat] ++ pos q ++ [byte n])
              | .monitor l i b q n lim r =>
                record 3 ([byte (laneNat l), byte i.toNat, flag b] ++ pos q ++ beBytes 2 n ++ [byte lim, byte r])
              | .pocketFull l k n i f =>
                record 4 ([byte (laneNat l), byte k.val] ++ beBytes 2 n ++ [byte i] ++ beBytes 2 f)
              | .tray t =>
                record 5
                  ([byte (laneNat t.lane), byte t.pocket.val] ++ beBytes 2 t.count ++ beBytes 4 t.valueSum
                    ++ tag (t.firstTag.getD 0) ++ tag (t.lastTag.getD 0))
              | .inkLow l h u w => record 6 ([byte (laneNat l), byte (headNat h)] ++ beBytes 3 u ++ beBytes 3 w)
              | .inkOut l h u c => record 7 ([byte (laneNat l), byte (headNat h)] ++ beBytes 3 u ++ [byte c])
              | .head l h b n => record 8 [byte (laneNat l), byte (headNat h), flag b, byte n]
              | .piece rs =>
                record 9
                  (byte rs.length
                    :: rs.flatMap fun r =>
                      tag r.tag
                        ++ [byte (laneNat r.lane), one (r.disposition.map fun x => x.index.val), one (r.corner.map Corner.toNat),
                          one (r.category.map Fin.val), one (r.pocket.map Fin.val)]
                        ++ beBytes 2 (r.length.getD 0))
              | .refused c n => record 10 [0, c, n]

/-- R3, R4, R6, R9: a unit that fails a test is dropped and counted under that test alone; a frame the
part does not consume is offered to the FIFO, and lost with PASS_DROPS when it is full; one of unknown
kind addressed to the part is dropped with KIND_UNKNOWN. -/
def Obligations.UnitsAreDroppedForwardedOrCounted : Prop :=
  (∀ (s : State) (u : List Byte),
      let k := s.link.counters
      (u.length < 8 ∨ 263 < u.length → exec (.unitReceived u) s = .next s.formatCounted)
        ∧ (8 ≤ u.length → u.length ≤ 263 → checkBytes (u.take (u.length - 2)) ≠ u.drop (u.length - 2) →
          exec (.unitReceived u) s
            = .next { s with link := { s.link with counters := { k with checkErrors := min (k.checkErrors + 1) 65535 } } })
        ∧ (8 ≤ u.length → u.length ≤ 263 → checkBytes (u.take (u.length - 2)) = u.drop (u.length - 2) →
          (u.getD 5 0).toNat ≠ u.length - 8 → exec (.unitReceived u) s = .next s.formatCounted))
    ∧ ∀ (s : State) (d src : Station) (kind : Byte) (p : List Byte), s.FramesFiled → p.length ≤ 255 →
      let u := frameBytes d src kind p
      let k := s.link.counters
      (kind ∉ [0x11#8, 0x21, 0x22, 0x23, 0x31, 0x32] → s.link.named d →
          exec (.unitReceived u) s
            = .next { s with link := { s.link with counters := { k with kindUnknown := min (k.kindUnknown + 1) 65535 } } })
        ∧ (kind ∈ [0x22#8, 0x23, 0x31] ∨ kind ≠ 0x11#8 ∧ ¬s.link.named d
              ∨ kind = 0x11#8 ∧ ∀ l, ¬((s.geometry l).loaded = true ∧ (s.geometry l).scanSource = src) →
          (s.link.fifo.length < 4 →
              ∃ t, exec (.unitReceived u) s = .next t ∧ t.quiet = s.quiet ∧ t.reportTraffic = s.reportTraffic
                ∧ (∀ l, t.actTraffic l = s.actTraffic l) ∧ t.passTraffic = s.passTraffic ++ [u])
            ∧ (4 ≤ s.link.fifo.length → exec (.unitReceived u) s = .next s.passDropped))

/-- R6, R10, R18: a COMMAND frame addressed to the part sets the controller address and is accepted
while the command queue and the Report Queue have room, and otherwise refused with a REFUSED notice to
its sender, whatever the mask; a payload below two bytes is a format error. -/
def Obligations.CommandFramesAreAcceptedOrRefused : Prop :=
  ∀ (s : State) (d src : Station) (p : List Byte), s.FramesFiled → p.length ≤ 255 → s.link.named d →
    let unit := frameBytes d src 0x21 p
    (p.length < 2 → Consumes (.commandFrame unit) s unit d s.formatCounted [])
      ∧ ∀ (code number : Byte) (args : List Byte), p = code :: number :: args →
        let w := { s with link := { s.link with controller := src } }
        let room := s.reports.queued.length + s.reports.reserved < 32
        (s.interp.queue.length < 4 → room →
            Consumes (.commandFrame unit) s unit d
              { w with
                interp := { s.interp with queue := s.interp.queue ++ [⟨src, code, number, args⟩] }
                reports := { s.reports with reserved := s.reports.reserved + 1 } }
              [])
          ∧ (4 ≤ s.interp.queue.length → room →
            Consumes (.commandFrame unit) s unit d { w with reports := { s.reports with nextSerial := s.reports.nextSerial + 1 } }
              [{ dest := src, src := s.link.station, body := .notice s.reports.nextSerial (.refused code number) }])
          ∧ (¬room →
            Consumes (.commandFrame unit) s unit d
              { w with
                reports :=
                  { s.reports with
                    nextSerial := s.reports.nextSerial + 1, noticeLost := min (s.reports.noticeLost + 1) 65535
                    latches := s.reports.latches ||| 0x200#11 } }
              [])

/-- R8, R57, R124: an ACT_STATUS frame of a head sets or clears the head's FAULT inhibit, with a HEAD
notice at a change; a FAULT of another actuator jams a RUNNING or DRAINING lane; every other report has no effect, and a payload out of its layout is a format error. A broadcast that jams is forwarded
too, in either order (log entry 3). That a jam out of DRAINING closes the batch too is the model's reading
(log entry 7). -/
def Obligations.ActStatusReachesHeadOrLane : Prop :=
  ∀ (s : State) (d src : Station) (p : List Byte), s.FramesFiled → p.length ≤ 255 → s.link.named d →
    let unit := frameBytes d src 0x32 p
    (∀ (l : Lane) (h : HeadId) (fault : Bool),
        p = [byte (laneNat l), byte (4 + headNat h), if fault then 1 else 0] →
          (fault = (s.head l h).fault → Consumes (.actStatusFrame unit) s unit d s [])
            ∧ (fault ≠ (s.head l h).fault →
              Consumes (.actStatusFrame unit) s unit d
                ((s.modHead l h fun x => { x with fault := fault }).noted .head)
                (s.noticeFrames .head (.head l h fault (s.head l h).booking.length))))
      ∧ (∀ (l : Lane) (a : Nat), a ≤ 3 →
        (p = [byte (laneNat l), byte a, 0] → Consumes (.actStatusFrame unit) s unit d s [])
          ∧ (p = [byte (laneNat l), byte a, 1] →
            ((s.lane l).state = .stopped ∨ (s.lane l).state = .jammed → Consumes (.actStatusFrame unit) s unit d s [])
              ∧ ((s.lane l).state = .running ∨ (s.lane l).state = .draining → ¬s.link.wild d → s.Slots 2 →
                Jams (.actStatusFrame unit) s s l .actuatorFault)
              ∧ ((s.lane l).state = .running ∨ (s.lane l).state = .draining → s.link.wild d → s.FreeLinkIsIdle → s.Slots 2 →
                (s.link.fifo.length < 4 → JamsForwarding (.actStatusFrame unit) s unit l .actuatorFault)
                  ∧ (4 ≤ s.link.fifo.length →
                    Jams (.actStatusFrame unit) s s.choiceDrawn.passDropped l .actuatorFault))))
      ∧ (¬(p.length = 3 ∧ (p.getD 0 0).toNat ≤ 1 ∧ (p.getD 1 0).toNat ≤ 5 ∧ (p.getD 2 0).toNat ≤ 1) →
        Consumes (.actStatusFrame unit) s unit d s.formatCounted [])

/-- R12, R13: at the end of a transmission the link is granted to a waiting ACT queue, the other lane's
first where both wait; then to PASS or REPORT, the other one than last where both wait; and it is free
when nothing waits. The granted frame leaves its queue at once. -/
def Obligations.TransmissionEndGrantsByRule : Prop :=
  ∀ (s : State) (x : Outgoing), s.link.sending = some x →
    (∀ (l : Lane) (f : OutFrame) (fs : List OutFrame), s.link.act.get l = f :: fs →
        s.link.act.get (otherLane l) = [] ∨ s.link.lastAct = otherLane l →
          exec .transmissionEnd s
            = .next { s with link := { s.link with act := s.link.act.set l fs, lastAct := l, sending := some (.own f) } })
      ∧ (s.link.act = ⟨[], []⟩ →
        (∀ (u : List Byte) (us : List (List Byte)), s.link.fifo = u :: us →
            s.reports.queued = [] ∨ s.link.lastGrant = .report →
              exec .transmissionEnd s
                = .next { s with link := { s.link with fifo := us, lastGrant := .pass, sending := some (.passed u) } })
          ∧ (∀ (f : OutFrame) (fs : List OutFrame), s.reports.queued = f :: fs → s.link.fifo = [] ∨ s.link.lastGrant = .pass →
            exec .transmissionEnd s
              = .next
                { s with
                  link := { s.link with lastGrant := .report, sending := some (.own f) }
                  reports := { s.reports with queued := fs } })
          ∧ (s.link.fifo = [] → s.reports.queued = [] →
            exec .transmissionEnd s = .next { s with link := { s.link with sending := none } }))

/-- R11, R113, R143, R160: an ACT frame joins the tail of its lane's queue while it holds fewer than 8.
Over a full queue the frame is lost: a RUNNING or DRAINING lane jams with ACT_OVERRUN, and where the lost
frame is a FEED frame its FEED HOLD is placed whatever the rate was; a JAMMED lane, or a STOPPED one, stays
as it is. The frames of one decision that follow a lost one are discarded. That a jam out of DRAINING closes
the batch too is the model's reading (log entry 7). -/
def Obligations.FullActQueueLosesFrameAndJams : Prop :=
  ∀ (s : State) (l : Lane) (m : ActMsg), s.FramesFiled →
    let t := s.placeAct l m
    let jams := fun (fromFeed : Bool) =>
      t.quiet = (s.jammed l).quiet ∧ t.reportTraffic = s.reportTraffic ++ s.jamReports l .actOverrun
        ∧ t.actTraffic l = s.link.sendingOwn.filter (OutFrame.forLane l) ++ s.jamActs l fromFeed
        ∧ t.actTraffic (otherLane l) = s.actTraffic (otherLane l) ∧ t.passTraffic = s.passTraffic
    ((s.link.act.get l).length < 8 →
        t.quiet = s.quiet ∧ t.reportTraffic = s.reportTraffic ∧ t.actTraffic l = s.actTraffic l ++ [s.actFrame l m]
          ∧ t.actTraffic (otherLane l) = s.actTraffic (otherLane l) ∧ t.passTraffic = s.passTraffic)
      ∧ (8 ≤ (s.link.act.get l).length →
        ((s.lane l).active = true → s.Slots 2 →
            ((∀ r, m ≠ .feed r) → jams false) ∧ (∀ r, m = .feed r → jams true)
              ∧ ∀ ms, s.placeAll l (m :: ms) = t)
          ∧ ((s.lane l).active = false → t = s))
      ∧ ∀ ms, (s.lane l).state ≠ .jammed → s.placeAll l (m :: ms) = t.placeAll l ms

/-! ### The belt and the eye -/

/-- R36, R44: a step moves the belt by one, mod 2^24, in every lane state; a forward step ahead of the
forward mark moves the mark, and a backward step more than reverse_limit behind it jams a RUNNING or
DRAINING lane with REVERSE. That a jam out of DRAINING closes the batch too is the model's reading (log
entry 7). R37: a position has been reached, or another lies at or beyond or beyond it, by the half-range
test; the signed distance; and one step of the belt reaches one position at most. -/
def Obligations.BeltStepMovesBeltByHalfRange : Prop :=
  ((∀ p q : Pos, reached q p = true ↔ (q - p).toNat < 8388608)
    ∧ (∀ p q : Pos, beyond q p = true ↔ (q - p).toNat < 8388608 ∧ q ≠ p)
    ∧ (∀ a b : Pos,
      signedDistance a b = if (a - b).toNat < 8388608 then ((a - b).toNat : Int) else ((a - b).toNat : Int) - 16777216)
    ∧ ∀ q p p' : Pos, reached q p = false → reached (q + 1) p = true → reached q p' = false → reached (q + 1) p' = true →
      p = p')
    ∧ ∀ (s : State) (l : Lane),
    exec (.beltStep l true) s
        = .next
          (s.modLane l fun x =>
            { x with
              belt := x.belt + 1
              forwardMark :=
                x.forwardMark.map fun m => if (x.belt + 1 - m).toNat < 8388608 then x.belt + 1 else m })
      ∧ (let w := s.modLane l fun x => { x with belt := x.belt - 1 }
        ((∀ m, (s.lane l).forwardMark = some m → (m - ((s.lane l).belt - 1)).toNat ≤ (s.geometry l).reverseLimit) →
            exec (.beltStep l false) s = .next w)
          ∧ ((s.lane l).active = false → exec (.beltStep l false) s = .next w)
          ∧ ∀ m, (s.lane l).forwardMark = some m → (s.geometry l).reverseLimit < (m - ((s.lane l).belt - 1)).toNat →
            (s.lane l).active = true → s.FramesFiled → s.Slots 2 → Jams (.beltStep l false) s w l .reverse)

/-- R49 to R52: a leading edge in IDLE has no effect but on the level of the input; one that finds the eye
ARMED is captured by a RUNNING lane with room and a lead ahead of the newest, as a fresh record with the
next tag; any other counts UNTRACKED and passes. In GAP_HOLD, after an uncaptured piece it passes
uncounted; after a captured piece that has been decided it passes and counts UNTRACKED; otherwise the
newest record is reopened, SHINGLED and counted once, and its scan abandoned. That an edge at an input
which already has that level changes nothing is the model's choice (log entry 1). -/
def Obligations.LeadingEdgeCapturesReopensOrPasses : Prop :=
  (∀ (s : State) (l : Lane),
    let x := s.lane l
    let ahead := ∀ p, x.list.getLast? = some p → beyond x.belt p.lead = true
    (x.eyeCovered = true → exec (.leadingEdge l) s = .next s)
      ∧ (x.eyeCovered = false → x.eye = .idle →
        exec (.leadingEdge l) s = .next (s.modLane l fun x => { x with eyeCovered := true }))
      ∧ (x.eyeCovered = false → x.eye = .armed → x.state = .draining ∨ 24 ≤ x.list.length ∨ ¬ahead →
        exec (.leadingEdge l) s
          = .next
            (s.modLane l fun x =>
              { x with
                eyeCovered := true, eye := .passing x.belt
                counters := { x.counters with untracked := min (x.counters.untracked + 1) 4294967295 } }))
      ∧ (x.eyeCovered = false → x.eye = .armed → x.state = .running → x.list.length < 24 → ahead → s.Room l 0 1 →
        let u :=
          s.modLane l fun x =>
            { x with
              eyeCovered := true, eye := .covered x.belt, nextTag := x.nextTag + 1
              counters := { x.counters with captured := min (x.counters.captured + 1) 4294967295 }
              list :=
                x.list
                  ++ [{ tag := x.nextTag, lead := x.belt, length := none, shingled := false, overlength := false
                        lateFound := false, staleRef := false, multi := false, scan := .collecting, finding := none
                        gate := none, stream := none, route := none, cancel := .nothing, strikeStart := none
                        pocket := none, disposition := none, value := 0, overlengthTaken := false
                        sampleWaitDue := false, decisionTaken := false, pocketTaken := false }] }
        Gives (.leadingEdge l) s (u.modLane l LaneS.rated) [] (actsFor l (u.feedActs l))))
    ∧ (∀ (s : State) (l : Lane) (h : Pos) (captured : Bool), (s.lane l).eyeCovered = false → (s.lane l).eye = .gapHold h captured →
    (captured = false →
        exec (.leadingEdge l) s = .next (s.modLane l fun x => { x with eyeCovered := true, eye := .passing x.belt }))
      ∧ ∀ p, captured = true → s.newest? l = some p →
        (p.decisionTaken = true →
            exec (.leadingEdge l) s
              = .next
                (s.modLane l fun x =>
                  { x with
                    eyeCovered := true, eye := .passing x.belt
                    counters := { x.counters with untracked := min (x.counters.untracked + 1) 4294967295 } }))
          ∧ (p.decisionTaken = false →
            exec (.leadingEdge l) s
              = .next
                ((s.modLane l fun x =>
                    { x with
                      eyeCovered := true, eye := .covered x.belt
                      list :=
                        x.list.map fun q =>
                          if q.tag = p.tag then { q with length := none, shingled := true, sampleWaitDue := false } else q
                      counters :=
                        if p.shingled then x.counters
                        else { x.counters with shingled := min (x.counters.shingled + 1) 4294967295 }
                      window :=
                        if p.shingled then x.window
                        else x.window.map fun w => { w with shingle := min (w.shingle + 1) 65535 } }).abandonScan
                  l p.tag)))

/-- R53, R54: a trailing edge in PASSING arms the eye or starts a gap hold; in COVERED a span below
min_len retires the undecided, unshingled newest record as GLITCH, and any other span stores its length
(min_len at least) and starts a gap hold. A record that becomes OVERLENGTH has its scan abandoned; one
whose samples are complete asks for a slot. That an edge at an input which already has that level changes
nothing is the model's choice (log entry 1). -/
def Obligations.TrailingEdgeStoresLengthOrRetiresGlitch : Prop :=
  ∀ (s : State) (l : Lane),
    let x := s.lane l
    let g := s.geometry l
    (x.eyeCovered = false → exec (.trailingEdge l) s = .next s)
      ∧ (x.eyeCovered = true → x.eye = .idle →
        exec (.trailingEdge l) s = .next (s.modLane l fun x => { x with eyeCovered := false }))
      ∧ (∀ st, x.eyeCovered = true → x.eye = .passing st →
        exec (.trailingEdge l) s
          = .next
            (s.modLane l fun x =>
              { x with
                eyeCovered := false
                eye :=
                  if signedDistance x.belt st < g.minLen then .armed
                  else .gapHold (x.belt + BitVec.ofNat 24 g.minGap) false }))
      ∧ ∀ (st : Pos) (p : Piece), x.eyeCovered = true → x.eye = .covered st → s.newest? l = some p →
        let d := signedDistance x.belt p.lead
        (d < g.minLen → p.shingled = false → p.decisionTaken = false → p.pocket = none → s.Room l 2 1 →
            let u := s.modLane l fun x => { x with eyeCovered := false, eye := .armed }
            let q := { p with disposition := some .glitch }
            let v := (u.handedOff l q .glitch).modLane l LaneS.rated
            Gives (.trailingEdge l) s (v.settled l)
              ((u.modLane l (LaneS.afterRetirement q .glitch)).appendSent (q.reported l .glitch) ++ v.settledNotice l)
              (actsFor l ((u.handedOff l q .glitch).feedActs l)))
          ∧ (x.TagsDistinct → (g.minLen : Int) ≤ d ∨ p.shingled = true ∨ p.decisionTaken = true →
            let len := if d < g.minLen then g.minLen else d.toNat
            let long := p.overlength = false ∧ g.maxLen < len
            let complete :=
              p.scan = .collecting
                ∧ ∀ b, ∃ h, x.highMarks.get b = some h ∧ reached h (p.lead + BitVec.ofNat 24 len - 2) = true
            let u :=
              s.modLane l fun x =>
                { x with
                  eyeCovered := false, eye := .gapHold (x.belt + BitVec.ofNat 24 g.minGap) true
                  list :=
                    x.list.map fun q =>
                      if q.tag = p.tag then
                        { q with
                          length := some len, overlength := q.overlength || decide (g.maxLen < len)
                          sampleWaitDue := !q.shingled && !(q.overlength || decide (g.maxLen < len)) }
                      else q }
            (long → exec (.trailingEdge l) s = .next (u.abandonScan l p.tag))
              ∧ (¬long → complete → exec (.trailingEdge l) s = .next (u.askSlot l p.tag))
              ∧ (¬long → ¬complete → exec (.trailingEdge l) s = .next u))

/-- R50, R56, R57: a hold end that is reached arms the eye, and a covered limit that is reached jams the
lane with EYE_BLOCKED, in RUNNING and DRAINING. That a hold end or limit which is not reached, or is that
of another lane state, changes nothing is the model's choice (log entry 1), and that a jam out of DRAINING
closes the batch too its reading (log entry 7). -/
def Obligations.EyeLimitsArmOrJam : Prop :=
  ∀ (s : State) (l : Lane),
    let x := s.lane l
    (∀ h c, x.eye = .gapHold h c → x.active = true → reached x.belt h = true →
        exec (.holdEnd l) s = .next (s.modLane l fun x => { x with eye := .armed }))
      ∧ (∀ h c, x.eye = .gapHold h c → x.active = false ∨ reached x.belt h = false → exec (.holdEnd l) s = .next s)
      ∧ ∀ st, x.eye = .covered st ∨ x.eye = .passing st →
        let limit := st + BitVec.ofNat 24 ((s.geometry l).maxCovered + 1)
        (x.active = true → reached x.belt limit = true → s.FramesFiled → s.Slots 2 →
            Jams (.coveredLimit l) s s l .eyeBlocked)
          ∧ (x.active = false ∨ reached x.belt limit = false → exec (.coveredLimit l) s = .next s)

/-! ### Scans and slots -/

/-- R55, R69: an overlength point that is reached under the COVERED eye marks the record and abandons its
scan; a sample-wait expiry that is reached makes a record that is still COLLECTING ask for a slot. R55, R74,
R75: what becomes of a scan that is abandoned, that meets its decision point, and that a jam withdraws. -/
def Obligations.ScansAskAndAreWithdrawn : Prop :=
  (∀ (s : State) (l : Lane) (tag : Tag) (p : Piece), s.piece? l tag = some p → (s.lane l).active = true →
    (∀ st, (s.lane l).eye = .covered st → s.newest? l = some p → p.overlengthTaken = false →
        reached (s.lane l).belt (p.lead + BitVec.ofNat 24 ((s.geometry l).maxLen + 1)) = true →
          exec (.overlengthPoint l tag) s
            = .next ((s.modPiece l tag fun q => { q with overlength := true, overlengthTaken := true }).abandonScan l tag))
      ∧ ∀ n, p.length = some n → p.sampleWaitDue = true →
        reached (s.lane l).belt (p.lead + BitVec.ofNat 24 n + BitVec.ofNat 24 (s.geometry l).sampleWait) = true →
          let u := s.modPiece l tag fun q => { q with sampleWaitDue := false }
          (p.scan = .collecting → exec (.sampleWaitExpiry l tag) s = .next (u.askSlot l tag))
            ∧ (p.scan ≠ .collecting → exec (.sampleWaitExpiry l tag) s = .next u))
    ∧ (∀ (s : State) (l : Lane) (tag : Tag) (p : Piece), s.piece? l tag = some p →
      let failed := fun r => s.modPiece l tag fun q => { q with scan := .failed r }
      let unlisted := fun (u : State) =>
        { u with scan := { u.scan with waitList := u.scan.waitList.filter fun e => e ≠ (l, tag) } }
      let jobs := (s.scorer.queues.get l).filter fun j => j.tag ≠ tag
      let unqueued := fun (u : State) =>
        { u with scorer := { u.scorer with queues := u.scorer.queues.set l jobs } }.passSlotsOn
          ((s.scorer.queues.get l).length - jobs.length)
      match p.scan with
      | .collecting => s.abandonScan l tag = failed .withdrawn ∧ s.settleScan l tag = failed .late
      | .slotWait => s.abandonScan l tag = unlisted (failed .withdrawn) ∧ s.settleScan l tag = unlisted (failed .late)
      | .queued => s.abandonScan l tag = unqueued (failed .withdrawn) ∧ s.settleScan l tag = unqueued (failed .late)
      | .scoring => s.abandonScan l tag = failed .withdrawn ∧ s.settleScan l tag = s
      | .scored =>
        s.abandonScan l tag = (s.modPiece l tag fun q => { q with scan := .failed .withdrawn, finding := none })
          ∧ s.settleScan l tag = s
      | .failed _ => s.abandonScan l tag = s ∧ s.settleScan l tag = s)
    ∧ ∀ (s : State) (l : Lane),
      let u :=
        { s with
          scan := { s.scan with waitList := s.scan.waitList.filter fun e => e.1 ≠ l }
          scorer := { s.scorer with queues := s.scorer.queues.set l [] }
          lanes :=
            s.lanes.set l
              { s.lane l with
                list :=
                  (s.lane l).list.map fun (q : Piece) =>
                    match q.scan with
                    | .collecting | .slotWait | .queued => { q with scan := .failed .jam }
                    | .scoring | .scored | .failed _ => q } }
      s.withdrawLane l = u.passSlotsOn (s.scorer.queues.get l).length

/-- R70 to R73, R79: a record that asks takes a free slot at once, with the job copied from its lane as it
stands, or waits at the list's tail; a released slot goes to the head of the list, or becomes free, and
several go one after another; the slots held are the jobs of the two queues and of the engine. R69: after a
filing every COLLECTING record with a length and all four high marks at or beyond its trailing position
less 2 asks, in list order. -/
def Obligations.SlotsAreGrantedInTheOrderAsked : Prop :=
  ∀ (s : State) (l : Lane) (tag : Tag),
    (8 ≤ s.slotsHeld →
        s.askSlot l tag
          = { s with scan := { s.scan with waitList := s.scan.waitList ++ [(l, tag)] } }.modPiece l tag fun q =>
            { q with scan := .slotWait })
      ∧ (s.slotsHeld < 8 → s.askSlot l tag = s.grantSlot l tag)
      ∧ (s.scan.waitList = [] → s.passSlotOn = s)
      ∧ (∀ rest, s.scan.waitList = (l, tag) :: rest →
        s.passSlotOn = { s with scan := { s.scan with waitList := rest } }.grantSlot l tag)
      ∧ (s.passSlotsOn 0 = s ∧ ∀ k, s.passSlotsOn (k + 1) = s.passSlotOn.passSlotsOn k)
      ∧ (s.slotsHeld = s.scorer.queues.a.length + s.scorer.queues.b.length + if s.scorer.engine = none then 0 else 1)
      ∧ (let x := s.lane l
        let complete := fun (trail : Pos) =>
          [Band.aTop, .aBottom, .bTop, .bBottom].all fun b =>
            match x.highMarks.get b with
            | none => false
            | some h => decide ((h - (trail - 2)).toNat < 8388608)
        let ready := fun (p : Piece) =>
          match p.scan, p.length with
          | .collecting, some n => complete (p.lead + BitVec.ofNat 24 n)
          | _, _ => false
        s.askReady l = (x.list.filter ready).foldl (fun u p => u.askSlot l p.tag) s)
      ∧ ∀ (p : Piece) (n : Nat), s.piece? l tag = some p → p.length = some n →
        let x := s.lane l
        let m := (s.geometry l).cornerLen / 2
        let leading := fun (r : Ring) => (List.range m).map fun i => Ring.wanted r (p.lead + BitVec.ofNat 24 (2 * i))
        let trailing := fun (r : Ring) =>
          (List.range m).map fun i =>
            Ring.wanted r
              (p.lead + BitVec.ofNat 24 n - BitVec.ofNat 24 (s.geometry l).cornerLen + BitVec.ofNat 24 (2 * i))
        let j : Job :=
          { lane := l, tag := p.tag, lead := p.lead, length := n, m := m
            windows := ⟨trailing x.rings.aTop, leading x.rings.aBottom, leading x.rings.bTop, trailing x.rings.bBottom⟩
            refs := x.refs }
        (s.grantSlot l tag
            = { s with scorer := { s.scorer with queues := s.scorer.queues.set l (s.scorer.queues.get l ++ [j]) } }.modPiece l
              tag fun q => { q with scan := .queued })
          ∧ (s.grantSlot l tag).slotsHeld = s.slotsHeld + 1

/-- R7, R62: a SAMPLE frame from one lane's scan source is handled sample by sample, two steps apart, by
a RUNNING or DRAINING lane and discarded by another; one from the scan source of both lanes is handled so
by each, in one of the two orders (log entry 3); a payload of the wrong shape is a format error. -/
def Obligations.SampleFramesAreTakenInPayloadOrder : Prop :=
  ∀ (s : State) (d src : Station) (p : List Byte) (l : Lane), p.length ≤ 255 →
    (s.geometry l).loaded = true → (s.geometry l).scanSource = src →
      let unit := frameBytes d src 0x11 p
      (∀ (k : Byte) (b : Band) (q : Pos) (xs : List Sample), bandOf k = some b → 1 ≤ xs.length → xs.length ≤ 60 → (∀ x ∈ xs, x.ph < 65536 ∧ x.fl < 65536) →
          p = [k] ++ posBytes q ++ [byte xs.length] ++ (xs.flatMap fun x => beBytes 2 x.ph ++ beBytes 2 x.fl) →
          let take := fun (m : Lane) (u : State) =>
            if (u.lane m).active = true then
              xs.zipIdx.foldl (fun u e => u.takeSample m b (q + BitVec.ofNat 24 (2 * e.2)) e.1) u
            else u
          (¬((s.geometry (otherLane l)).loaded = true ∧ (s.geometry (otherLane l)).scanSource = src) →
              exec (.sampleFrame unit) s = .next (take l s))
            ∧ ((s.geometry (otherLane l)).loaded = true → (s.geometry (otherLane l)).scanSource = src →
              exec (.sampleFrame unit) s = .next (take (otherLane l) (take l s.choiceDrawn))
                ∨ exec (.sampleFrame unit) s = .next (take l (take (otherLane l) s.choiceDrawn))))
        ∧ (¬(∃ n, 1 ≤ n ∧ n ≤ 60 ∧ p.length = 5 + 4 * n ∧ (p.getD 4 0).toNat = n ∧ (p.getD 0 0).toNat ≤ 3) →
          exec (.sampleFrame unit) s = .next s.formatCounted)

/-- R62, R65 to R68: one sample of a lane: more than 2,048 steps ahead it is counted and discarded;
otherwise it is clamped, filed, moves the high mark, and as a gap sample both references of its band. R63,
R64: a filed sample stands in the entry of its pitch cell and every other entry stays; a wanted position
gives the sample of its own pitch cell or a missing one. That a ring has one form, and keeps it, is the
model's choice (log entry 17). -/
def Obligations.SampleIsFiledAndMovesReferences : Prop :=
  ((∀ (r : Ring) (p : Pos) (x : Sample), r.canonical →
      (Ring.file r p x).canonical ∧ Ring.read (Ring.file r p x) (p.toNat / 2 % 1024) = some ⟨p, x⟩
        ∧ ∀ i, i ≠ p.toNat / 2 % 1024 → Ring.read (Ring.file r p x) i = Ring.read r i)
    ∧ ∀ (r : Ring) (w : Pos),
      (∀ e, Ring.read r (w.toNat / 2 % 1024) = some e →
          Ring.wanted r w = if e.pos.toNat / 2 = w.toNat / 2 then some e.sample else none)
        ∧ (Ring.read r (w.toNat / 2 % 1024) = none → Ring.wanted r w = none))
    ∧ ∀ (s : State) (l : Lane) (b : Band) (q : Pos) (raw : Sample),
    let x := s.lane l
    let g := s.geometry l
    let v : Sample := ⟨min raw.ph 4095, min raw.fl 4095⟩
    let moved := fun (ref z : Nat) => ((ref : Int) + ((z : Int) - (ref : Int)).fdiv 16).toNat
    let inSpan := fun (p : Piece) =>
      let a := p.lead - BitVec.ofNat 24 g.refGuard
      match p.length with
      | some n => (q - a).toNat < (p.lead + BitVec.ofNat 24 n + BitVec.ofNat 24 g.refGuard - a).toNat
      | none => (q - a).toNat < 8388608
    let filed := fun (y : LaneS) =>
      { y with
        rings := y.rings.set b (Ring.file (y.rings.get b) q v)
        highMarks :=
          y.highMarks.set b
            (match y.highMarks.get b with
            | none => some q
            | some h => if beyond q h then some q else some h) }
    (2048 < signedDistance q x.belt →
        s.takeSample l b q raw
          = s.modLane l fun y => { y with counters := { y.counters with sampleRange := min (y.counters.sampleRange + 1) 4294967295 } })
      ∧ (signedDistance q x.belt ≤ 2048 → (∃ p ∈ x.list, inSpan p) → s.takeSample l b q raw = (s.modLane l filed).askReady l)
      ∧ (signedDistance q x.belt ≤ 2048 → (∀ p ∈ x.list, ¬inSpan p) →
        s.takeSample l b q raw
          = (s.modLane l fun y =>
                { filed y with
                  refs := y.refs.set b ⟨moved (y.refs.get b).ph v.ph, moved (y.refs.get b).fl v.fl⟩
                  window :=
                    y.window.map fun w =>
                      { w with reference := w.reference.set b (min (w.reference.get b + 1) 65535) } }).askReady l)

/-! ### Decisions -/

/-- R116 to R118: the booking check answers by the first case that applies, from the head as it stands. -/
def Obligations.BookingCheckTakesFirstCase : Prop :=
  ∀ (s : State) (l : Lane) (h : HeadId) (lead : Pos) (stamp : Nat),
    let x := s.head l h
    let g := s.geometry l
    let start := lead + BitVec.ofNat 24 ((match h with | .l => g.dHeadL | .t => g.dHeadT) + (stamp - g.leadIn))
    let die := s.store.tables.dieCommon.loaded = true ∧ s.date.isSome = true
    let inked := x.ink = false ∧ (s.dieHead l h).inkCost + x.reserved ≤ x.units
    let check := s.bookingCheck l h lead stamp
    (x.fault = true → check = .suppressed .fault)
      ∧ (x.fault = false → ¬die → check = .suppressed .die)
      ∧ (x.fault = false → die → ¬inked → check = .suppressed .ink)
      ∧ (x.fault = false → die → inked → 4 ≤ x.booking.length ∨ 8388608 ≤ (start - x.freePos).toNat → check = .missed)
      ∧ (x.fault = false → die → inked → x.booking.length < 4 → (start - x.freePos).toNat < 8388608 → check = .bookable)

/-- R104, R105, R107, R109, R110, R112: the reject of the check that applies goes to stream X through the
gate as it stands, REJECT_LATE counted late; free_pos moves past the piece, and one DIVERT frame is
placed. Its scan is settled first. R42: the extent is the length, or without one what the piece can measure
up to its covered limit. -/
def Obligations.DecisionRejectsByFirstCheck : Prop :=
  (∀ (g : Geometry) (eye : Eye) (p : Piece),
      (∀ n, p.length = some n → extent g eye p = n)
        ∧ ∀ st, p.length = none → eye = .covered st →
          extent g eye p = (st + BitVec.ofNat 24 (g.maxCovered + 1) - p.lead).toNat)
    ∧ ∀ (s : State) (l : Lane) (p : Piece) (d : Disposition), Deciding s l p → s.rejectedBy l p d → s.Room l 0 1 →
    let g := p.lead + BitVec.ofNat 24 (s.geometry l).dGate
    let ext := extent (s.geometry l) (s.lane l).eye p
    Gives (.decisionPoint l p.tag) s
      (((s.modPiece l p.tag fun q => { q with decisionTaken := true }).settleScan l p.tag).modLane l fun y =>
        { y with
          list :=
            y.list.map fun q =>
              if q.tag = p.tag then
                { q with disposition := some d, stream := some .x, route := some .reject, gate := some y.gate.setting }
              else q
          gate := { y.gate with freePos := g + BitVec.ofNat 24 (ext + (s.geometry l).gateSettle) }
          window := if d = .rejectLate then y.window.map Window.later else y.window })
      [] (actsFor l [s.actFrame l (.divert p.tag .x g (g + BitVec.ofNat 24 ext))])

/-- R101, R106, R108, R110 to R113, R119: a HIT record that no check rejects is faced: the gate takes its
corner's setting, a bookable strike is booked with the die as it stands, the record takes its fields, a
stamp that cannot be struck is counted, and GATE, STRIKE and DIVERT are placed in that order. -/
def Obligations.DecisionCommitsFacedPiece : Prop :=
  (wantedSetting .c1 = .pass ∧ wantedSetting .c2 = .flip ∧ wantedSetting .c3 = .pass ∧ wantedSetting .c4 = .flip
      ∧ wantedHead .c1 = .t ∧ wantedHead .c2 = .l ∧ wantedHead .c3 = .l ∧ wantedHead .c4 = .t)
    ∧ ∀ (s : State) (l : Lane) (p : Piece) (f : Finding) (h : Hit), Deciding s l p → p.Scored f → f.result = .hit h →
      s.gateServes l p h.corner →
      (∃ k ∈ (s.stackerMap l).list (wantedStream h.corner) (s.facing l p f h).1, s.selectable l k) → s.Room l 0 3 →
        let geo := s.geometry l
        let g := p.lead + BitVec.ofNat 24 geo.dGate
        let ext := extent geo (s.lane l).eye p
        let w := wantedSetting h.corner
        let hd := wantedHead h.corner
        let route := (s.facing l p f h).1
        let cancel := (s.facing l p f h).2.1
        let disposition := (s.facing l p f h).2.2
        let start := p.lead + BitVec.ofNat 24 ((match hd with | .l => geo.dHeadL | .t => geo.dHeadT) + (h.stampStart - geo.leadIn))
        let common := s.store.tables.dieCommon
        let strike : Strike :=
          { tag := p.tag, start := start, stop := start + BitVec.ofNat 24 geo.strikeLen, cost := (s.dieHead l hd).inkCost
            die :=
              { officeCode := common.officeCode, officeName := common.officeName, lineNumber := common.lineNumber
                date := s.date.getD ⟨0, 0, 0, 0⟩, text := (s.dieHead l hd).text }
            started := false }
        Gives (.decisionPoint l p.tag) s
          (s.modLane l fun y =>
            { y with
              list :=
                y.list.map fun q =>
                  if q.tag = p.tag then
                    { q with
                      decisionTaken := true, gate := some w, stream := some (wantedStream h.corner), route := some route
                      cancel := cancel, disposition := some disposition
                      strikeStart := if cancel = .booked then some start else q.strikeStart }
                  else q
              gate := { setting := w, freePos := g + BitVec.ofNat 24 (ext + geo.gateSettle) }
              heads :=
                if cancel = .booked then
                  y.heads.set hd
                    { y.heads.get hd with
                      booking := (y.heads.get hd).booking ++ [strike], reserved := (y.heads.get hd).reserved + strike.cost
                      freePos := start + BitVec.ofNat 24 (geo.strikeLen + geo.recoverLen) }
                else y.heads
              counters :=
                match cancel with
                | .missed => { y.counters with missed := min (y.counters.missed + 1) 4294967295 }
                | .suppressed _ => { y.counters with suppressed := min (y.counters.suppressed + 1) 4294967295 }
                | _ => y.counters })
          []
          (actsFor l
            ((if w = (s.lane l).gate.setting then []
                else [s.actFrame l (.gate p.tag w (g - BitVec.ofNat 24 geo.gateSettle) g)])
              ++ (if cancel = .booked then [s.actFrame l (.strike hd p.tag start strike.stop strike.die)] else [])
              ++ [s.actFrame l (.divert p.tag (wantedStream h.corner) g (g + BitVec.ofNat 24 ext))]))

/-! ### Strikes, pocket points, retirements, window ends -/

/-- R121 to R123: a strike whose start is reached fires, spends its ink and raises INK LOW and INK OUT,
or is suppressed by a FAULT inhibit; at its end it leaves the booking list. -/
def Obligations.StrikesFireOrAreSuppressed : Prop :=
  ∀ (s : State) (l : Lane) (h : HeadId) (k : Strike), (s.head l h).strike? k.tag = some k → (s.lane l).active = true →
    let x := s.head l h
    let after := x.units - k.cost
    let low := (s.dieHead l h).inkLow
    let cost := (s.dieHead l h).inkCost
    let taken := x.booking.map fun j => if j.tag = k.tag then { j with cost := 0, started := true } else j
    (k.started = false → reached (s.lane l).belt k.start = true →
        (x.fault = false → s.FramesFiled → s.Slots 2 →
            let u :=
              s.modLane l fun y =>
                { y with
                  heads := y.heads.set h { x with units := after, reserved := x.reserved - k.cost, booking := taken }
                  list := y.list.map fun q => if q.tag = k.tag then { q with cancel := .struck } else q
                  counters := { y.counters with strikes := min (y.counters.strikes + 1) 4294967295 } }
            let v := if low ≤ x.units ∧ after < low then (u.withLatches 0x080#11).announced .ink else u
            let w :=
              if after < cost ∧ x.ink = false then
                ((v.modHead l h fun y => { y with ink := true }).withLatches 0x100#11).announced .ink
              else v
            Gives (.strikeStart l h k.tag) s w
              ((if low ≤ x.units ∧ after < low then u.announcement .ink (.inkLow l h after low) else [])
                ++ if after < cost ∧ x.ink = false then v.announcement .ink (.inkOut l h after cost) else [])
              noActs)
          ∧ (x.fault = true →
            exec (.strikeStart l h k.tag) s
              = .next
                (s.modLane l fun y =>
                  { y with
                    heads := y.heads.set h { x with reserved := x.reserved - k.cost, booking := taken }
                    list :=
                      y.list.map fun q =>
                        if q.tag = k.tag then
                          { q with
                            cancel := .suppressed .fault
                            disposition := if q.disposition = some .facedCancelled then some .facedHand else q.disposition }
                        else q
                    counters := { y.counters with suppressed := min (y.counters.suppressed + 1) 4294967295 } })))
      ∧ (k.started = true → reached (s.lane l).belt k.stop = true →
        exec (.strikeEnd l h k.tag) s
          = .next (s.modHead l h fun y => { y with booking := y.booking.filter fun j => j.tag ≠ k.tag }))

/-- R135 to R137, R142: at a pocket point the route class is settled from the record as it stands; the
first OPEN pocket of the route's list below full_level, or else the first FULL one below hard_level, is
chosen, with its inbound, a POCKET FULL where it fills, and the POCKET frame; with none the lane jams. That
a jam out of DRAINING closes the batch too is the model's reading (log entry 7). -/
def Obligations.PocketPointChoosesOrJams : Prop :=
  ∀ (s : State) (l : Lane) (p : Piece), s.piece? l p.tag = some p → (s.lane l).active = true → p.decisionTaken = true →
    p.pocketTaken = false → (∀ h, ∀ k ∈ (s.head l h).booking, k.tag = p.tag → k.started = true) →
    reached (s.lane l).belt (p.lead + BitVec.ofNat 24 (s.geometry l).dPocket) = true →
      ∀ (st : Stream) (route : RouteClass), p.stream = some st →
        (st = .x ∧ route = .reject
          ∨ st ≠ .x ∧ ∃ f h, p.finding = some f ∧ f.result = .hit h
            ∧ (h.kind = .meter ∧ route = .meter ∨ h.kind = .permit ∧ route = .permit
              ∨ h.kind = .stamp ∧ (p.cancel = .struck ∨ f.precancel = true) ∧ route = .cancelled
              ∨ h.kind = .stamp ∧ p.cancel ≠ .struck ∧ f.precancel = false ∧ route = .hand)) →
          let levels := fun k => (s.stackerMap l).levels.get k
          let held := fun k => (s.pocket l k).count + (s.pocket l k).inbound
          let opened := fun k => (s.pocket l k).state = .opened ∧ held k < (levels k).fullLevel
          let overfill := fun k => (s.pocket l k).state = .full ∧ held k < (levels k).hardLevel
          let ks := (s.stackerMap l).list st route
          let point := fun (q : Piece) => { q with pocketTaken := true, route := some route }
          (∀ (before after : List (Fin 10)) (k : Fin 10), ks = before ++ k :: after →
              (opened k ∧ ∀ j ∈ before, ¬opened j) ∨ (overfill k ∧ (∀ j ∈ ks, ¬opened j) ∧ ∀ j ∈ before, ¬overfill j) →
                s.Room l 1 1 →
                  let fills := (s.pocket l k).state = .opened ∧ (levels k).fullLevel ≤ held k + 1
                  let u :=
                    (s.modPiece l p.tag fun q => { point q with pocket := some k }).modPocket l k fun x =>
                      { x with inbound := x.inbound + 1, state := if fills then .full else x.state }
                  Gives (.pocketPoint l p.tag) s (if fills then (u.withLatches 0x040#11).announced .pocket else u)
                    (if fills then
                      u.announcement .pocket
                        (.pocketFull l k (s.pocket l k).count ((s.pocket l k).inbound + 1) (levels k).fullLevel)
                    else [])
                    (actsFor l
                      [s.actFrame l
                          (.pocket p.tag k (p.lead + BitVec.ofNat 24 (s.geometry l).dPocket)
                            (p.lead
                              + BitVec.ofNat 24 (extent (s.geometry l) (s.lane l).eye p + (s.geometry l).dStack)))]))
            ∧ ((∀ k ∈ ks, ¬s.selectable l k) → s.FramesFiled → s.Slots 2 →
              Jams (.pocketPoint l p.tag) s (s.modPiece l p.tag point) l .noPocket)

/-- R43, R60, R138, R146, R148, R155, R48: an ordinary retirement takes the record out of the list and
hands it to the counters, its pocket, the window and the batch; the feed rate follows the list's size,
and a drained lane stops. -/
def Obligations.RetirementHandsRecordOff : Prop :=
  ∀ (s : State) (l : Lane) (p : Piece) (n : Nat) (d : Disposition), s.piece? l p.tag = some p → (s.lane l).active = true →
    p.length = some n → p.disposition = some d → p.decisionTaken = true → p.pocketTaken = true →
    reached (s.lane l).belt (p.lead + BitVec.ofNat 24 n + BitVec.ofNat 24 (s.geometry l).dStack) = true → s.Room l 2 1 →
      let u := s.handedOff l p d
      let v := u.modLane l LaneS.rated
      Gives (.retirement l p.tag) s (v.settled l)
        (((s.modLane l (LaneS.afterRetirement p d)).gainCategory p d).appendSent (p.reported l d) ++ v.settledNotice l)
        (actsFor l (u.feedActs l))

/-- R154, R156 to R159: a window is bad for a monitor by its limit, and the runs of bad and good windows
declare and clear the monitor. At a window end the enabled monitors are judged in the order REJECT, LATE,
SHINGLE, REFERENCE, with their latches and notices, a disabled one is left as it is; then the feed rate is worked out, and the next window
starts at the end position with a fresh copy of the profile. That a window end which is not reached, or is
that of an inactive lane, changes nothing is the model's choice (log entry 1). -/
def Obligations.WindowEndJudgesMonitors : Prop :=
  (∀ (s : State) (l : Lane) (w : Window), (s.lane l).window = some w →
    ((s.lane l).active = false ∨ reached (s.lane l).belt w.stop = false → exec (.windowEnd l) s = .next s)
      ∧ ((s.lane l).active = true → reached (s.lane l).belt w.stop = true → s.Room l 4 1 →
        let s1 := s.judged l w .reject
        let s2 := s1.judged l w .late
        let s3 := s2.judged l w .shingle
        let s4 := s3.judged l w .reference
        let pr := s.store.tables.monitor
        Gives (.windowEnd l) s
          ((s4.modLane l LaneS.rated).modLane l fun x =>
            { x with
              window :=
                some
                  { start := w.stop, stop := w.stop + BitVec.ofNat 24 pr.winLen, profile := pr, reject := 0, late := 0
                    shingle := 0, reference := ⟨0, 0, 0, 0⟩ } })
          (s.judgedSent l w .reject ++ s1.judgedSent l w .late ++ s2.judgedSent l w .shingle ++ s3.judgedSent l w .reference)
          (actsFor l (s4.feedActs l))))
    ∧ ((∀ w : Window,
      (w.bad .reject = true ↔ w.profile.monitors.reject.limit < w.reject)
        ∧ (w.bad .late = true ↔ w.profile.monitors.late.limit < w.late)
        ∧ (w.bad .shingle = true ↔ w.profile.monitors.shingle.limit < w.shingle)
        ∧ (w.bad .reference = true ↔ ∃ b, w.reference.get b < w.profile.monitors.reference.limit))
    ∧ ∀ (e : MonitorEntry) (x : Monitor),
      (x.declared = false ∧ e.declareN ≤ min (x.badRun + 1) 15 → x.judge e true = ⟨true, 0, 0⟩)
        ∧ (x.declared = true ∨ min (x.badRun + 1) 15 < e.declareN →
          x.judge e true = ⟨x.declared, min (x.badRun + 1) 15, 0⟩)
        ∧ (x.declared = true ∧ e.clearM ≤ min (x.goodRun + 1) 15 → x.judge e false = ⟨false, 0, 0⟩)
        ∧ (x.declared = false ∨ min (x.goodRun + 1) 15 < e.clearM →
          x.judge e false = ⟨x.declared, 0, min (x.goodRun + 1) 15⟩))
    ∧ ∀ (s : State) (l : Lane) (w : Window) (m : MonitorId),
      let e := w.profile.monitors.get m
      let old := (s.lane l).monitors.get m
      let new := old.judge e (w.bad m)
      let u := s.modLane l fun x => { x with monitors := x.monitors.set m new }
      let latch : BitVec 11 := match m with | .reject => 0x004 | .late => 0x008 | .shingle => 0x010 | .reference => 0x020
      (e.enable = false → s.judged l w m = s ∧ s.judgedSent l w m = [])
        ∧ (e.enable = true → new.declared = old.declared → s.judged l w m = u ∧ s.judgedSent l w m = [])
        ∧ (e.enable = true → new.declared ≠ old.declared →
          s.judged l w m = (u.withLatches latch).announced .monitor
            ∧ ∃ count,
              (match m with
                | .reject => count = w.reject
                | .late => count = w.late
                | .shingle => count = w.shingle
                | .reference => (∃ b, count = w.reference.get b) ∧ ∀ b, count ≤ w.reference.get b)
              ∧ s.judgedSent l w m
                = s.announcement .monitor
                  (.monitor l m new.declared w.stop count e.limit (if new.declared then e.declareN else e.clearM)))

/-! ### Scoring -/

/-- R85 to R88: the score is the saturating sum of the excesses times 16 over m; the run is the longest
stretch of qualifying samples and first the earliest start of one that long; missing counts the missing
samples. -/
def Obligations.CornerResultsFollowTheExcesses : Prop :=
  ∀ (c : ChannelRecord) (m : Nat) (refs : Refs) (w : List (Option Sample)) (ch : Channel),
    let ref := match ch with | .ph => refs.ph | .fl => refs.fl
    let floor := match ch with | .ph => c.floorPH | .fl => c.floorFL
    let level := match ch with | .ph => c.runLevelPH | .fl => c.runLevelFL
    let excessOf := fun (x : Sample) => (match ch with | .ph => x.ph | .fl => x.fl) - (ref + floor)
    let good := fun (i : Nat) => ∃ x, w[i - 1]? = some (some x) ∧ 1 ≤ i ∧ level ≤ excessOf x
    let r := scoreChannel c m refs w ch
    r.score = min (min ((w.map fun x => (x.map excessOf).getD 0).sum) 524287 * 16 / m) 65535
      ∧ r.missing = (w.filter fun x => x = none).length
      ∧ (∀ a n, 1 ≤ a → (∀ i, a ≤ i → i < a + n → good i) → n ≤ r.run)
      ∧ (r.run = 0 → r.first = 0)
      ∧ (0 < r.run → 1 ≤ r.first ∧ (∀ i, r.first ≤ i → i < r.first + r.run → good i)
        ∧ ∀ a, 1 ≤ a → (∀ i, a ≤ i → i < a + r.run → good i) → r.first ≤ a)

/-- R71, R84 to R96: each corner of a job is scored from its own window against its own band's references;
a corner's hit is its lowest-numbered satisfied profile, none for a void corner; the six cases decide the
finding, a HIT carries its stamp start, and a STAMP hit is looked up by its exact key. -/
def Obligations.FindingFollowsTheSixCases : Prop :=
  (∀ (t : Tables) (m : Nat) (refs : Refs) (w : List (Option Sample)),
      let r := scoreCorner t m refs w
      let satisfied := fun (n : Fin 8) =>
        let p := t.profiles.get n
        let x := match p.channel with | .ph => r.ph | .fl => r.fl
        p.enable = true ∧ p.scoreMin ≤ x.score ∧ x.score ≤ p.scoreMax ∧ p.runMin ≤ x.run ∧ x.run ≤ p.runMax
      r.ph = scoreChannel t.channels m refs w .ph ∧ r.fl = scoreChannel t.channels m refs w .fl
        ∧ (r.isVoid = true ↔ m / 8 < (w.filter fun x => x = none).length)
        ∧ (∀ n, r.hit = some n ↔ r.isVoid = false ∧ satisfied n ∧ ∀ k < n, ¬satisfied k))
    ∧ (∀ (t : Tables) (j : Job) (c : Corner),
      (scoreJob t j).get c
        = scoreCorner t j.m
          (match c with | .c1 => j.refs.aTop | .c2 => j.refs.aBottom | .c3 => j.refs.bTop | .c4 => j.refs.bBottom)
          (match c with | .c1 => j.windows.c1 | .c2 => j.windows.c2 | .c3 => j.windows.c3 | .c4 => j.windows.c4))
    ∧ ∀ (t : Tables) (j : Job) (rs : PerCorner CornerResult),
      let hs := cornerHits t rs
      let allVoid := ∀ c, (rs.get c).isVoid = true
      (∀ h ∈ hs, ∃ n, (rs.get h.corner).hit = some n ∧ h.profile = n
          ∧ h.score = ((rs.get h.corner).channel (t.profiles.get n).channel).score
          ∧ h.run = ((rs.get h.corner).channel (t.profiles.get n).channel).run
          ∧ h.first = ((rs.get h.corner).channel (t.profiles.get n).channel).first)
        ∧ (∀ c, (rs.get c).hit ≠ none → ∃ h ∈ hs, h.corner = c)
        ∧ (allVoid → findingOf t j rs = plainFinding .noData)
        ∧ (¬allVoid → hs = [] → findingOf t j rs = plainFinding .noMark)
        ∧ (¬allVoid → ∀ h ∈ hs, (∀ k ∈ hs, k.corner ≠ h.corner → k.score < h.score ∧ 2 * k.score ≤ h.score) →
          findingOf t j rs = hitFinding t j h (decide (1 < hs.length)))
        ∧ (¬allVoid → hs ≠ [] →
          (∀ h ∈ hs, ∃ k ∈ hs, k.corner ≠ h.corner ∧ (h.score ≤ k.score ∨ h.score < 2 * k.score)) →
            findingOf t j rs = plainFinding .ambiguous)
        ∧ ∀ (h : CornerHit) (multi : Bool),
          let kind := (t.profiles.get h.profile).kind
          let first := if h.run = 0 then 1 else h.first
          let stamp :=
            match h.corner with
            | .c2 | .c3 => 2 * (first - 1)
            | .c1 | .c4 => j.length + 2 * (first - 1) - 2 * j.m
          let hit := fun category =>
            FindingResult.hit
              { corner := h.corner, profile := h.profile, kind := kind, score := h.score, run := h.run, stampStart := stamp
                category := category }
          (kind ≠ .stamp → hitFinding t j h multi = ⟨hit none, 0, false, multi, false⟩)
            ∧ (kind = .stamp →
              let named := fun (e : SigEntry) =>
                e.key.profile = h.profile ∧ e.key.width.val = min (h.run / 8) 31 ∧ e.key.band.val = min (h.score / 1024) 63
              ((∀ e ∈ t.signature, ¬named e) → hitFinding t j h multi = ⟨hit (some 63), 0, false, multi, false⟩)
                ∧ ∀ e ∈ t.signature, named e → (∀ e' ∈ t.signature, named e' → e' = e) →
                  hitFinding t j h multi = ⟨hit (some e.category), e.value, e.precancel, multi, false⟩)

/-- R77, R97 to R100: at a scoring complete the finding of a record still SCORING is written, late or
stale as it stands and counted so, and the audit counter advances; any other result is discarded. Then
the slot is passed on, and the engine, idle, takes its next job. -/
def Obligations.ScoringCompleteWritesOrDiscards : Prop :=
  ∀ (s : State) (j : Job), s.scorer.engine = some j →
    let rs := scoreJob s.store.tables j
    let f := findingOf s.store.tables j rs
    let after := fun (u : State) => ({ u with scorer := { u.scorer with engine := none } }.passSlotOn).takeJob
    let stale := (s.lane j.lane).monitors.reference.declared
    let n := (s.lane j.lane).auditCounter + 1
    ((∀ p, s.piece? j.lane j.tag = some p → p.scan ≠ .scoring) → exec .scoringComplete s = .next (after s))
      ∧ ∀ p, s.piece? j.lane j.tag = some p → p.scan = .scoring →
        let u :=
          s.modLane j.lane fun x =>
            { x with
              list :=
                x.list.map fun q =>
                  if q.tag = p.tag then
                    { q with
                      finding := some { f with staleRef := stale }, scan := .scored, value := f.value, multi := q.multi || f.multi
                      staleRef := q.staleRef || stale, lateFound := q.lateFound || q.decisionTaken }
                  else q
              counters :=
                { x.counters with
                  lateFound := if p.decisionTaken then min (x.counters.lateFound + 1) 4294967295 else x.counters.lateFound
                  staleRef := if stale then min (x.counters.staleRef + 1) 4294967295 else x.counters.staleRef } }
        (s.scan.auditInterval = 0 → exec .scoringComplete s = .next (after u))
          ∧ (n < s.scan.auditInterval →
            exec .scoringComplete s = .next (after (u.modLane j.lane fun x => { x with auditCounter := n })))
          ∧ (0 < s.scan.auditInterval → s.scan.auditInterval ≤ n →
            let v := u.modLane j.lane fun x => { x with auditCounter := 0 }
            (s.scan.auditStore = none →
                exec .scoringComplete s
                  = .next
                    (after
                      { v with
                        scan := { s.scan with auditStore := some ⟨j.lane, j.tag, j.m, j.windows, j.refs, rs, f.result⟩ } }))
              ∧ (s.scan.auditStore ≠ none →
                exec .scoringComplete s
                  = .next
                    (after
                      (v.modLane j.lane fun x =>
                        { x with counters := { x.counters with auditSkipped := min (x.counters.auditSkipped + 1) 4294967295 } }))))

/-- R19, R80: the free interpreter takes the command at the head of its queue; the idle engine takes the
head job of a scoring queue, of the lane not served last where both wait, and its record is SCORING. That
the two takes are steps of their own, and change nothing where there is nothing to take, is the model's
choice (log entry 1). -/
def Obligations.InterpreterAndEngineTakeTheHead : Prop :=
  ∀ s : State,
    (∀ c cs, s.interp.executing = none → s.interp.queue = c :: cs →
        exec .commandTake s = .next { s with interp := { queue := cs, executing := some c } })
      ∧ (s.interp.executing ≠ none ∨ s.interp.queue = [] → exec .commandTake s = .next s)
      ∧ (∀ l j js, s.scorer.engine = none → s.scorer.queues.get l = j :: js →
        s.scorer.queues.get (otherLane l) = [] ∨ s.scorer.lastServed = otherLane l →
          exec .engineTake s
            = .next
              ({ s with scorer := { queues := s.scorer.queues.set l js, engine := some j, lastServed := l } }.modLane l fun (x : LaneS) =>
                { x with list := x.list.map fun (q : Piece) => if q.tag = j.tag then { q with scan := .scoring } else q }))
      ∧ (s.scorer.engine ≠ none ∨ s.scorer.queues = ⟨[], []⟩ → exec .engineTake s = .next s)

/-! ### Lane commands -/

/-- R46: LANE_START is WRONG_STATE in JAMMED, DONE without effect in RUNNING, and NOT_READY without
geometry or an enabled profile or with a write on Ink Profile or Lane Geometry open; a start from
STOPPED sets mark, eye, high marks, references, gate, heads and window, and a resumption keeps them. -/
def Obligations.LaneStartStartsOrResumes : Prop :=
  ∀ (s : State) (c : Cmd) (l : Lane), Executing s 0x10 c → c.args = [byte (laneNat l)] →
    let g := s.geometry l
    let ready :=
      g.loaded = true ∧ (∃ n, (s.store.tables.profiles.get n).enable = true) ∧ .ink ∉ s.store.phase.writes
        ∧ .geometry ∉ s.store.phase.writes
    let running := fun (u : State) => (u.entered l .running).modLane l LaneS.rated
    let gives := fun (u : State) =>
      Gives .laneStart s (running u).answered (u.laneNotice l .running ++ [u.response c .done []])
        (actsFor l ((u.entered l .running).feedActs l))
    ((s.lane l).state = .jammed → Completes .laneStart s c s .wrongState [])
      ∧ ((s.lane l).state = .running → Completes .laneStart s c s .done [])
      ∧ ((s.lane l).state = .stopped ∨ (s.lane l).state = .draining → ¬ready → Completes .laneStart s c s .notReady [])
      ∧ ((s.lane l).state = .draining → ready → s.Slots 1 → s.Places l 1 → gives s)
      ∧ ((s.lane l).state = .stopped → ready → s.Slots 1 → s.Places l 1 →
        let pr := s.store.tables.monitor
        let seeds : Refs := ⟨g.refSeedPH, g.refSeedFL⟩
        gives
          (s.modLane l fun x =>
            { x with
              forwardMark := some x.belt, eye := if x.eyeCovered then .passing x.belt else .armed
              highMarks := ⟨none, none, none, none⟩, refs := ⟨seeds, seeds, seeds, seeds⟩, gate := ⟨.pass, x.belt⟩
              heads := ⟨x.heads.l.atReset x.belt, x.heads.t.atReset x.belt⟩
              window :=
                some
                  { start := x.belt, stop := x.belt + BitVec.ofNat 24 pr.winLen, profile := pr, reject := 0, late := 0
                    shingle := 0, reference := ⟨0, 0, 0, 0⟩ } }))

/-- R28, R47: LANE_STOP of a RUNNING lane closes the batch, builds the LANE notice, sets the rate to HOLD
with its FEED frame, and stops an empty lane at once, all before its DONE; in other states it is DONE
without effect. -/
def Obligations.LaneStopDrainsTheLane : Prop :=
  ∀ (s : State) (c : Cmd) (l : Lane), Executing s 0x11 c → c.args = [byte (laneNat l)] →
    ((s.lane l).state ≠ .running → Completes .laneStop s c s .done [])
      ∧ ((s.lane l).state = .running → s.Slots 3 → s.Places l 1 →
        let u := s.batchTaken.entered l .draining
        let v := u.modLane l LaneS.rated
        Gives .laneStop s (v.settled l).answered
          (s.batchSent ++ s.batchTaken.laneNotice l .draining ++ v.settledNotice l ++ [s.response c .done []])
          (actsFor l (u.feedActs l)))

/-- R59: JAM_CLEAR retires every record of a JAMMED lane as JAM_LOST, oldest first: each is counted and
joins the batch, and each pocket's inbound is gone; the lane becomes STOPPED, and the LANE notice and
DONE follow the PIECE notices. In other states it is WRONG_STATE. -/
def Obligations.JamClearRetiresTheList : Prop :=
  ∀ (s : State) (c : Cmd) (l : Lane), Executing s 0x12 c → c.args = [byte (laneNat l)] →
    ((s.lane l).state ≠ .jammed → Completes .jamClear s c s .wrongState [])
      ∧ ((s.lane l).state = .jammed → (s.lane l).InboundRight → (∀ h, (s.head l h).booking = []) → s.Slots 25 →
        (s.lane l).list.length ≤ 24 →
        let x := s.lane l
        let lost := x.list.map fun p => { p with disposition := some .jamLost }.reported l .jamLost
        let u :=
          (s.modLane l fun x =>
            { x with
              list := [], pockets := x.pockets.map Pocket.deserted, counters := x.counters.lost .jamLost x.list.length })
        let v := u.appendedAll lost
        Gives .jamClear s (v.entered l .stopped).answered
          (u.appendAllSent lost ++ v.laneNotice l .stopped ++ [s.response c .done []]) noActs)

/-! ### Audit, heads, pockets and counts -/

/-- R125: INK_REFILL below the reserved ink is BAD_ARGUMENT; otherwise it replaces the units, sets or
clears the INK inhibit by the ink cost, and answers the units as they stood. R127: DIE_DATE replaces the
postmark date and hour when the day lies within its month, February having 29 days in the years divisible
by 4; a day beyond the month is BAD_ARGUMENT. -/
def Obligations.InkAndDateCommandsReplace : Prop :=
  (∀ (s : State) (c : Cmd) (l : Lane) (h : HeadId) (n : Nat), Executing s 0x20 c → n ≤ 1000000 →
    c.args = [byte (laneNat l), byte (headNat h)] ++ beBytes 3 n →
      (n < (s.head l h).reserved → Completes .inkRefill s c s .badArgument [])
        ∧ ((s.head l h).reserved ≤ n →
          Completes .inkRefill s c
            (s.modHead l h fun x => { x with units := n, ink := decide (n < (s.dieHead l h).inkCost) }) .done
            (beBytes 3 (s.head l h).units)))
    ∧ (∀ (s : State) (c : Cmd) (y m d h : Nat), Executing s 0x21 c → 2000 ≤ y → y ≤ 2099 → 1 ≤ m → m ≤ 12 → 1 ≤ d → d ≤ 31 →
    h ≤ 23 → c.args = beBytes 2 y ++ [byte m, byte d, byte h] →
      let valid :=
        (m = 2 → d ≤ 28 ∨ d = 29 ∧ y % 4 = 0) ∧ (m = 4 ∨ m = 6 ∨ m = 9 ∨ m = 11 → d ≤ 30)
      (valid → Completes .dieDate s c { s with date := some ⟨y, m, d, h⟩ } .done [])
        ∧ (¬valid → Completes .dieDate s c s .badArgument []))

/-- R140, R141: SWEEP_START closes an OPEN or FULL pocket, at once where nothing is inbound, and answers
the state entered and the inbound; SWEEP_DONE empties a pocket in SWEEP, with its tray record in a TRAY
notice and in the response, whose tags are 0 where the pocket has none. In the other states they are WRONG_STATE. -/
def Obligations.SweepsCloseAndEmptyPockets : Prop :=
  (∀ (s : State) (c : Cmd) (l : Lane) (k : Fin 10), Executing s 0x28 c → c.args = [byte (laneNat l), byte k.val] →
      let x := s.pocket l k
      let entered := if x.inbound = 0 then PocketState.sweep else .sweepWait
      (x.state = .opened ∨ x.state = .full →
          Completes .sweepStart s c (s.modPocket l k fun y => { y with state := entered }) .done
            [byte entered.toNat, byte x.inbound])
        ∧ (x.state = .sweepWait ∨ x.state = .sweep → Completes .sweepStart s c s .wrongState []))
    ∧ ∀ (s : State) (c : Cmd) (l : Lane) (k : Fin 10), Executing s 0x29 c → c.args = [byte (laneNat l), byte k.val] →
      let x := s.pocket l k
      let t : Tray :=
        { lane := l, pocket := k, count := x.count, valueSum := x.valueSum, firstTag := x.firstTag, lastTag := x.lastTag }
      (x.state ≠ .sweep → Completes .sweepDone s c s .wrongState [])
        ∧ (x.state = .sweep →
          CompletesAfter .sweepDone s c (s.noticeFrames .tray (.tray t))
            ((s.noted .tray).modPocket l k fun y =>
              { y with state := .opened, count := 0, valueSum := 0, firstTag := none, lastTag := none })
            .done
            ([byte (laneNat l), byte k.val] ++ beBytes 2 x.count ++ beBytes 4 x.valueSum
              ++ beBytes 2 (x.firstTag.getD 0).toNat ++ beBytes 2 (x.lastTag.getD 0).toNat))

/-- R149, R150: COUNT_SNAPSHOT answers the group's values as they stand, and with clear on clears that
group alone: of a lane CAPTURED becomes the list size, of a block every record 0. The 25 counters of a
lane stand in the order of R145. That off is 0 and on is 1 is presumed (log entry 6). -/
def Obligations.CountSnapshotAnswersAndClears : Prop :=
  (∀ k : LaneCounters,
      k.values
        = [k.captured, k.untracked]
          ++ [Disposition.facedCancelled, .facedPrecancel, .facedHand, .facedMeter, .facedPermit, .rejectDouble, .rejectLate,
              .rejectScan, .rejectNomark, .rejectAmbiguous, .rejectGate, .rejectPocket, .glitch, .jamLost,
              .resetLost].map (fun d => k.dispositions.get d.index)
          ++ [k.strikes, k.missed, k.suppressed, k.shingled, k.lateFound, k.staleRef, k.sampleRange, k.auditSkipped])
    ∧ ∀ (s : State) (c : Cmd) (clear : Bool), Executing s 0x30 c →
    (∀ l : Lane, c.args = [byte (laneNat l), byte (switchNat clear)] →
        Completes .countSnapshot s c
          (if clear then
            s.modLane l fun x =>
              { x with
                counters :=
                  { captured := x.list.length, untracked := 0, dispositions := Vector.replicate 15 0, strikes := 0
                    missed := 0, suppressed := 0, shingled := 0, lateFound := 0, staleRef := 0, sampleRange := 0
                    auditSkipped := 0 } }
          else s)
          .done (((s.lane l).counters.values.flatMap (beBytes 4)) ++ [byte (s.lane l).list.length]))
      ∧ ∀ n : Fin 4, c.args = [byte (2 + n.val), byte (switchNat clear)] →
        ∃ cs : Vector CategoryRecord 64,
          (∀ i : Fin 64, cs.get i = if clear = true ∧ i.val / 16 = n.val then ⟨0, 0⟩ else s.categories.get i)
            ∧ Completes .countSnapshot s c { s with categories := cs } .done
              (((s.categories.toList.drop (16 * n.val)).take 16).flatMap fun r => beBytes 4 r.pieces ++ beBytes 4 r.valueTotal)

/-! ### The Table Store -/

/-- R164, R170: TABLE_OPEN checks flags, a suspended write, lock and interlock in this order and opens a
write; in PROGRAMMING it is TABLE_BUSY, and over a write being staged SEQUENCE, which discards it. -/
def Obligations.TableOpenOpensOrRefuses : Prop :=
  ∀ (s : State) (c : Cmd) (t : Table) (n k : Nat) (ls : LaneSet), Executing s 0x38 c → 1 ≤ n → n ≤ 32 → k < 256 →
    laneSetOf (byte k) = some ls → c.args = [byte t.toNat, byte n, byte k] →
      let clean := s.store.flags = 0
      let unlocked := (t = .ink → s.store.lockInk = false) ∧ (t = .geometry → s.store.lockGeometry = false)
        ∧ (t = .die → s.store.lockDie = false)
      let stopped := fun l => (s.lane l).state = .stopped
      let interlock := (t = .ink → stopped .a ∧ stopped .b)
        ∧ (t = .geometry → (ls = .onlyA ∨ ls = .both → stopped .a) ∧ (ls = .onlyB ∨ ls = .both → stopped .b))
      let tests := fun (allowed : Prop) (opened : Phase) =>
        (¬clean → Completes .tableOpen s c s .errorsPending [])
          ∧ (clean → ¬allowed → Completes .tableOpen s c s .tableBusy [])
          ∧ (clean → allowed → ¬unlocked → Completes .tableOpen s c (s.flagged .lock) .locked [])
          ∧ (clean → allowed → unlocked → ¬interlock → Completes .tableOpen s c (s.flagged .interlock) .interlock [])
          ∧ (clean → allowed → unlocked → interlock →
            Completes .tableOpen s c { s with store := { s.store with phase := opened } } .done [])
      let w : Staged := { table := t, laneSet := ls, count := n, received := [] }
      match s.store.phase with
      | .ready => tests True (.staging w)
      | .suspended p => tests (t ≠ p.table ∧ t ≠ .signature) (.nestedStaging p w)
      | .programming _ _ => Completes .tableOpen s c s .tableBusy []
      | .staging _ =>
        Completes .tableOpen s c (State.flagged { s with store := { s.store with phase := .ready } } .sequence) .sequence []
      | .nestedStaging p _ =>
        Completes .tableOpen s c (State.flagged { s with store := { s.store with phase := .suspended p } } .sequence) .sequence []
      | .nestedProgramming _ _ => Completes .tableOpen s c (s.flagged .sequence) .sequence []

/-- R165, R175: TABLE_FILL appends the carried entries to the open write and answers how many it holds;
entries beyond the count discard the write with SEQUENCE, an entry of another table is BAD_ARGUMENT, and
without an open write the answer is SEQUENCE, for entries of several tables too, which is the model's
choice (log entry 12). A length that is not k whole entries is BAD_COMMAND: bytes left over, entries missing,
or one cut short; so is any length with a k outside 1 to 8, as the layout allows none, which is the model's
reading (log entry 20). From an unknown table byte on, a length that some tables would give is
BAD_ARGUMENT and any other BAD_COMMAND, which is its choice (log entry 12). -/
def Obligations.TableFillAppendsEntries : Prop :=
  ∀ (s : State) (c : Cmd) (es : List (Table × List Byte)), Executing s 0x39 c → es.length < 256 →
    (∀ e ∈ es, e.2.length + 1 = e.1.entrySize) →
      let carried := es.flatMap fun e => byte e.1.toNat :: e.2
      let good := c.args = byte es.length :: carried ∧ 1 ≤ es.length ∧ es.length ≤ 8
      let filled := fun (w : Staged) (held : Staged → Phase) (discarded : Phase) =>
        ((∃ e ∈ es, e.1 ≠ w.table) → Completes .tableFill s c s .badArgument [])
          ∧ ((∀ e ∈ es, e.1 = w.table) → w.count < w.received.length + es.length →
            Completes .tableFill s c (State.flagged { s with store := { s.store with phase := discarded } } .sequence) .sequence [])
          ∧ ((∀ e ∈ es, e.1 = w.table) → w.received.length + es.length ≤ w.count →
            Completes .tableFill s c
              { s with store := { s.store with phase := held { w with received := w.received ++ es.map Prod.snd } } } .done
              [byte (w.received.length + es.length)])
      (good →
          match s.store.phase with
          | .staging w => filled w .staging .ready
          | .nestedStaging p w => filled w (.nestedStaging p) (.suspended p)
          | _ => Completes .tableFill s c (s.flagged .sequence) .sequence [])
        ∧ (c.args = [] → Completes .tableFill s c s .badCommand [])
        ∧ (∀ (k : Byte) (rest : List Byte), c.args = k :: rest → k.toNat = 0 ∨ 8 < k.toNat →
          Completes .tableFill s c s .badCommand [])
        ∧ ∀ (n : Nat) (tail : List Byte), 1 ≤ n → n ≤ 8 → es.length ≤ n → c.args = byte n :: (carried ++ tail) →
          (es.length = n → tail ≠ [] → Completes .tableFill s c s .badCommand [])
            ∧ (es.length < n → tail = [] → Completes .tableFill s c s .badCommand [])
            ∧ (∀ (t : Table) (bs : List Byte), es.length < n → tail = byte t.toNat :: bs → bs.length + 1 < t.entrySize →
              Completes .tableFill s c s .badCommand [])
            ∧ ∀ (z : Byte) (bs : List Byte), es.length < n → tail = z :: bs → 5 < z.toNat →
              ((∃ ts : List Table, ts.length = n - es.length ∧ (ts.map Table.entrySize).sum = tail.length) →
                  Completes .tableFill s c s .badArgument [])
                ∧ ((∀ ts : List Table, ts.length = n - es.length → (ts.map Table.entrySize).sum ≠ tail.length) →
                  Completes .tableFill s c s .badCommand [])

/-- R39, R82, R83, R92, R126, R131, R153, R175, R176 and 12.4: the sizes of the entries; an entry whose
fields lie in their ranges and whose cross-checks hold is read from the bytes of its layout; and bytes of
the right size are read as an entry only when the entry is so and they are its layout, unused bytes apart.
Whether unused bytes are tested is left free (log entry 4), a scan source byte of 0xFF is out of range by
the model's reading (log entry 10), and a switch byte is 0 or 1 (log entry 6). -/
def Obligations.StagedEntriesAreReadByTheirLayouts : Prop :=
  (∀ t : Table,
      t.entrySize = match t with | .ink => 11 | .signature => 9 | .geometry => 44 | .stacker => 8 | .monitor => 6 | .die => 29)
    ∧ (∀ (s : State) (e : Entry), e.Allowed s →
      e.layout.length + 1 = e.table.entrySize ∧ s.readEntry e.table e.layout = some e)
    ∧ ∀ (s : State) (t : Table) (bs : List Byte) (e : Entry), bs.length + 1 = t.entrySize → s.readEntry t bs = some e →
      e.table = t ∧ e.Allowed s ∧ ∀ i, i ∉ e.spare → bs[i]? = e.layout[i]?

/-- R167: TABLE_COMMIT of an open write fails at the first of its five checks, which sets its flag,
discards the write and answers its code; with every check passed programming begins, with no response
yet and the reservation kept. Without an open write it is SEQUENCE. What State.readEntry reads from an
entry's bytes has its own statement, with the model's choices in it (log entries 4 and 10). -/
def Obligations.TableCommitChecksInOrder : Prop :=
  ∀ (s : State) (c : Cmd), Executing s 0x3A c → c.args = [] →
    let commit := fun (w : Staged) (discarded : Phase) (begun : Programming → Phase) =>
      let fails := fun (x : StickyFlag) (rc : ResponseCode) =>
        Completes .tableCommit s c (State.flagged { s with store := { s.store with phase := discarded } } x) rc []
      let table := s.store.tables.signature
      (w.received.length ≠ w.count → fails .sequence .sequence)
        ∧ (w.received.length = w.count →
          ((∃ bs ∈ w.received, s.readEntry w.table bs = none) → fails .range .range)
            ∧ ∀ es : List Entry, w.received.map (s.readEntry w.table) = es.map some →
              let distinct := (es.map Entry.key).Nodup
              let room :=
                w.table = .signature →
                  table.length + (es.countP fun e => match e with | .put d => !table.any fun x => x.key == d.key | _ => false)
                    ≤ 256 + es.countP fun e => match e with | .drop k => table.any fun x => x.key == k | _ => false
              let interlock :=
                (w.table = .ink → (s.lane .a).state = .stopped ∧ (s.lane .b).state = .stopped)
                  ∧ (w.table = .geometry → ∀ l g, .geometry l g ∈ es →
                    (s.lane l).state = .stopped ∧ (w.laneSet = .both ∨ w.laneSet = (match l with | .a => .onlyA | .b => .onlyB)))
              (¬distinct → fails .duplicate .duplicate)
                ∧ (distinct → ¬room → fails .full .full)
                ∧ (distinct → room → ¬interlock → fails .interlock .interlock)
                ∧ (distinct → room → interlock →
                  exec .tableCommit s
                    = .next
                      { s with
                        interp := { s.interp with executing := none }
                        store :=
                          { s.store with
                            phase :=
                              begun
                                { table := w.table, total := w.count, applied := 0
                                  todo := es.filter Entry.isDrop ++ es.filter fun e => !e.isDrop, commit := c } } }))
    match s.store.phase with
    | .staging w => commit w .ready fun p => .programming p false
    | .nestedStaging p w => commit w (.suspended p) fun q => .nestedProgramming p q
    | _ => Completes .tableCommit s c (s.flagged .sequence) .sequence []

/-- R38, R93, R126, R132, R161: an applied entry replaces the record its key names and nothing else; a Lane
Geometry record and the Die common record are loaded from then on; a PUT or DROP
changes the one entry of its key and keeps the Signature Table in key order; a level pair is held at
count + inbound and brings its pocket's state into line. -/
def Obligations.EntriesReplaceTheirRecords : Prop :=
  (∀ (s : State) (n : Fin 8) (p : Profile),
      let u := s.applyEntry (.profile n p)
      u = { s with store := { s.store with tables := { s.store.tables with profiles := u.store.tables.profiles } } }
        ∧ ∀ k, u.store.tables.profiles.get k = if k = n then p else s.store.tables.profiles.get k)
    ∧ (∀ (s : State) (k : ChannelRecord),
      s.applyEntry (.channels k) = { s with store := { s.store with tables := { s.store.tables with channels := k } } })
    ∧ (∀ (s : State) (e : SigEntry) (k : SigKey), (s.store.tables.signature.Pairwise fun x y => x.key.rank < y.key.rank) →
      let put := s.applyEntry (.put e)
      let drop := s.applyEntry (.drop k)
      put = { s with store := { s.store with tables := { s.store.tables with signature := put.store.tables.signature } } }
        ∧ drop = { s with store := { s.store with tables := { s.store.tables with signature := drop.store.tables.signature } } }
        ∧ (put.store.tables.signature.Pairwise fun x y => x.key.rank < y.key.rank)
        ∧ (drop.store.tables.signature.Pairwise fun x y => x.key.rank < y.key.rank)
        ∧ (∀ d, d ∈ put.store.tables.signature ↔ d = e ∨ d ∈ s.store.tables.signature ∧ d.key ≠ e.key)
        ∧ ∀ d, d ∈ drop.store.tables.signature ↔ d ∈ s.store.tables.signature ∧ d.key ≠ k)
    ∧ (∀ (s : State) (l : Lane) (g : Geometry),
      s.applyEntry (.geometry l g)
        = { s with store := { s.store with tables := { s.store.tables with geometry := s.store.tables.geometry.set l { g with loaded := true } } } })
    ∧ (∀ (s : State) (n : Nat) (m : MonitorId) (e : MonitorEntry),
      s.applyEntry (.window n)
          = { s with store := { s.store with tables := { s.store.tables with monitor := { s.store.tables.monitor with winLen := n } } } }
        ∧ s.applyEntry (.monitor m e)
          = { s with
              store :=
                { s.store with
                  tables :=
                    { s.store.tables with
                      monitor := { s.store.tables.monitor with monitors := s.store.tables.monitor.monitors.set m e } } } })
    ∧ (∀ (s : State) (k : DieCommon) (l : Lane) (h : HeadId) (d : DieHead),
      s.applyEntry (.dieCommon k)
          = { s with store := { s.store with tables := { s.store.tables with dieCommon := { k with loaded := true } } } }
        ∧ s.applyEntry (.dieHead l h d)
          = { s with
              store :=
                { s.store with
                  tables :=
                    { s.store.tables with
                      dieHeads := s.store.tables.dieHeads.set l ((s.store.tables.dieHeads.get l).set h d) } } })
    ∧ (∀ (s : State) (l : Lane) (r : Fin 9) (ks : List (Fin 10)),
      let u := s.applyEntry (.route l r ks)
      u = { s with store := { s.store with tables := { s.store.tables with stacker := u.store.tables.stacker } } }
        ∧ ∀ m, (u.stackerMap m).levels = (s.stackerMap m).levels
          ∧ ∀ q, (u.stackerMap m).routes.get q = if m = l ∧ q = r then ks else (s.stackerMap m).routes.get q)
    ∧ ∀ (s : State) (l : Lane) (k : Fin 10) (v : Levels), s.FramesFiled → s.Slots 1 →
      let x := s.pocket l k
      let held := x.count + x.inbound
      let w : Levels := ⟨v.fullLevel, max v.hardLevel held⟩
      let m := s.stackerMap l
      let u :=
        { s with
          store :=
            { s.store with
              tables :=
                { s.store.tables with
                  stacker := s.store.tables.stacker.set l { m with levels := m.levels.set k.val w k.isLt } } } }
      let t := s.applyEntry (.levels l k v)
      let fills := x.state = .opened ∧ v.fullLevel ≤ held
      let state :=
        if fills then PocketState.full else if x.state = .full ∧ held < v.fullLevel then .opened else x.state
      let p := u.modPocket l k fun y => { y with state := state }
      t.quiet = (if fills then (p.withLatches 0x040#11).announced .pocket else p).quiet
        ∧ t.reportTraffic
          = s.reportTraffic
            ++ (if fills then s.announcement .pocket (.pocketFull l k x.count x.inbound v.fullLevel) else [])
        ∧ (∀ m, t.actTraffic m = s.actTraffic m) ∧ t.passTraffic = s.passTraffic

/-- R22, R168, R169: an application takes the next entry of the programming write; the last one ends the
write and answers its commit DONE in its own reservation, and a marked write is suspended after one more
entry. A nested write ends in SUSPENDED. That an application without a programming write changes nothing
is the model's choice (log entry 1). -/
def Obligations.EntryApplicationAdvancesTheWrite : Prop :=
  ∀ (s : State) (e : Entry) (rest : List Entry), s.FramesFiled →
    let last := fun (p : Programming) (phase : Phase) =>
      ∃ t, exec .entryApplication s = .next t
        ∧ t.quiet
          = { s.applyEntry e with
              store := { (s.applyEntry e).store with phase := phase }
              reports := { (s.applyEntry e).reports with reserved := s.reports.reserved - 1 } }.quiet
        ∧ t.reportTraffic = (s.applyEntry e).reportTraffic ++ [s.response p.commit .done []]
        ∧ (∀ l, t.actTraffic l = s.actTraffic l) ∧ t.passTraffic = s.passTraffic
    let goes := fun (phase : Phase) =>
      exec .entryApplication s = .next { s.applyEntry e with store := { (s.applyEntry e).store with phase := phase } }
    let next := fun (p : Programming) => { p with applied := p.applied + 1, todo := rest }
    match s.store.phase with
    | .programming p mark =>
      p.todo = e :: rest →
        (rest = [] → last p .ready)
          ∧ (rest ≠ [] → goes (if mark then .suspended (next p) else .programming (next p) false))
    | .nestedProgramming p q =>
      q.todo = e :: rest → (rest = [] → last q (.suspended p)) ∧ (rest ≠ [] → goes (.nestedProgramming p (next q)))
    | _ => exec .entryApplication s = .next s

/-- R163, R166, R169, R171: TABLE_ABANDON discards an open write; TABLE_STATUS_CLEAR answers the flags and
clears them; TABLE_SUSPEND marks a programming write and TABLE_RESUME resumes a suspended one; TABLE_LOCK
locks a table that no open write bars. In the other states the answer is the refusal of the rule. -/
def Obligations.TableCommandsMoveTheStore : Prop :=
  ∀ (s : State) (c : Cmd),
    let at' := fun (p : Phase) => { s with store := { s.store with phase := p } }
    (Executing s 0x3B c → c.args = [] →
        match s.store.phase with
        | .staging _ => Completes .tableAbandon s c (at' .ready) .done []
        | .nestedStaging p _ => Completes .tableAbandon s c (at' (.suspended p)) .done []
        | _ => Completes .tableAbandon s c s .wrongState [])
      ∧ (Executing s 0x3C c → c.args = [] →
        Completes .tableStatusClear s c { s with store := { s.store with flags := 0 } } .done [byte s.store.flags.toNat])
      ∧ (Executing s 0x3D c → c.args = [] →
        match s.store.phase with
        | .programming p _ => Completes .tableSuspend s c (at' (.programming p true)) .done []
        | _ => Completes .tableSuspend s c s .wrongState [])
      ∧ (Executing s 0x3E c → c.args = [] →
        match s.store.phase with
        | .suspended p => Completes .tableResume s c (at' (.programming p false)) .done []
        | .nestedStaging _ _ | .nestedProgramming _ _ => Completes .tableResume s c s .nestedBusy []
        | _ => Completes .tableResume s c s .wrongState [])
      ∧ ∀ t : Table, Executing s 0x3F c → c.args = [byte t.toNat] → t = .ink ∨ t = .geometry ∨ t = .die →
        let locked :=
          Completes .tableLock s c
            { s with
              store :=
                { s.store with
                  lockInk := s.store.lockInk || decide (t = .ink), lockGeometry := s.store.lockGeometry || decide (t = .geometry)
                  lockDie := s.store.lockDie || decide (t = .die) } }
            .done []
        match s.store.phase with
        | .ready => locked
        | .suspended p =>
          (t ≠ p.table → locked) ∧ (t = p.table → Completes .tableLock s c s .tableBusy [])
        | _ => Completes .tableLock s c s .tableBusy []

/-! ### What every step keeps -/

/-- R10 to R13: every step keeps the frames of each queue of that queue's kind, and leaves no frame
waiting while the link is free. R63: every step keeps every band ring in its one form, so that equal rings
are equal data; the form is the model's choice (log entry 17). -/
def Obligations.QueuesStayServedAndRingsCanonical : Prop :=
  ∀ s t : State, step s = .next t →
    (s.FramesFiled → s.FreeLinkIsIdle → t.FramesFiled ∧ t.FreeLinkIsIdle) ∧ (s.RingsCanonical → t.RingsCanonical)

/-- R18, R22, R23: every step keeps each reserved slot of the Report Queue with one command that is
queued, executing or programming, and queued frames and reserved slots within the 32 slots. R9, R11, R18,
R40, R73, R120: it keeps the FIFO, the ACT queues, the command queue, the track lists, the booking lists and
the scan slots within their places; R26, R27: the open batch below batch_level, and empty while piece
reporting is off; R164, R165: the entries of an open write within its count. -/
def Obligations.SlotsAndPlacesStayBalanced : Prop :=
  ∀ s t : State, s.SlotsBalanced → s.WithinCapacity → step s = .next t → t.SlotsBalanced ∧ t.WithinCapacity

/-- R69 to R76, R79: every step keeps each SLOT_WAIT record once in the slot wait list, each QUEUED record
with its one job and the one SCORING record with the engine's, with nothing else in list and queues, while
no record carries the tag of the next capture; so the wait list never holds more than 48. -/
def Obligations.WaitListAndJobsStayRight : Prop :=
  ∀ s t : State, s.ScansRight → (∀ l, (s.lane l).TagFree) → step s = .next t →
    t.ScansRight ∧ ((∀ l, (t.lane l).list.length ≤ 24) → t.scan.waitList.length ≤ 48)

/-- R92, R93, R167, R168, R170: every step keeps the Signature Table in strictly ascending key order
with at most 256 entries, and the entries that wait to be applied such that their application does. -/
def Obligations.SignatureTableStaysSound : Prop :=
  ∀ s t : State, s.store.SignatureSound → step s = .next t → t.store.SignatureSound

/-- R119, R121, R123, R125: every step keeps each head's reserved ink the sum of the costs of its booked
strikes and within its units, and each booked strike that of a decided record of its lane's list, while
no record carries the tag of the next capture. R120: a step leaves of a head's booked strikes some, as they
were booked, with its free_pos where any stay, or books one more, which starts at or beyond free_pos and
moves it to that strike's end and recovery. -/
def Obligations.ReservedInkStaysBalanced : Prop :=
  ∀ s t : State, s.InkBalanced → (∀ l, (s.lane l).StrikesOwned) → (∀ l, (s.lane l).TagFree) → step s = .next t →
    (t.InkBalanced ∧ ∀ l, (t.lane l).StrikesOwned)
      ∧ ∀ l h,
        let x := s.head l h
        let y := t.head l h
        let g := s.geometry l
        let booked := fun (k : Strike) => (k.tag, k.start, k.stop, k.die)
        (y.booking.map booked).Sublist (x.booking.map booked) ∧ (y.freePos = x.freePos ∨ y.booking = [])
          ∨ ∃ k, y.booking = x.booking ++ [k] ∧ (k.start - x.freePos).toNat < 8388608
            ∧ k.stop = k.start + BitVec.ofNat 24 g.strikeLen
            ∧ y.freePos = k.start + BitVec.ofNat 24 (g.strikeLen + g.recoverLen)

/-- R60, R133, R138, R146, R147: every step keeps CAPTURED the list size plus the fifteen disposition
counters, and every pocket's inbound the number of records that have it, while no record carries the tag
of the next capture and CAPTURED has not reached its ceiling. R131, R132, R133: it keeps count + inbound of
every pocket within its hard_level, and every full_level within its hard_level. -/
def Obligations.CountsAndInboundStayRight : Prop :=
  ∀ s t : State, (∀ l, (s.lane l).CountsRight) → (∀ l, (s.lane l).TagFree) →
    (∀ l, (s.lane l).counters.captured < 4294967295) → step s = .next t →
      (∀ l, (t.lane l).CountsRight) ∧ (s.PocketsFit → t.PocketsFit)

/-- R40: every step keeps the leads of each lane's list strictly ascending, while those of a RUNNING lane lie
near its belt. R44, R45, R49, R154, R159: every step keeps what holds in each lane state: the feed rate is
HOLD but in RUNNING, where monitors and list size give it; a STOPPED lane's list is empty; and the eye is
IDLE, with no window and no forward mark, just in STOPPED and JAMMED. -/
def Obligations.LanesKeepLeadOrderAndStates : Prop :=
  ∀ s t : State, step s = .next t →
    ((∀ l, (s.lane l).LeadsAscend) → (∀ l, (s.lane l).LeadsNear) → ∀ l, (t.lane l).LeadsAscend)
      ∧ ((∀ l, (s.lane l).StateHolds) → ∀ l, (t.lane l).StateHolds)

/-- The part at power-on meets every invariant of these statements. -/
def Obligations.PowerOnMeetsTheInvariants : Prop :=
  State.reset.FramesFiled ∧ State.reset.FreeLinkIsIdle ∧ State.reset.SlotsBalanced ∧ State.reset.WithinCapacity
    ∧ State.reset.store.SignatureSound ∧ State.reset.InkBalanced ∧ State.reset.RingsCanonical
    ∧ State.reset.PocketsFit ∧ State.reset.ScansRight
    ∧ ∀ l, (State.reset.lane l).StrikesOwned ∧ (State.reset.lane l).CountsRight ∧ (State.reset.lane l).TagFree
      ∧ (State.reset.lane l).LeadsAscend ∧ (State.reset.lane l).LeadsNear ∧ (State.reset.lane l).StateHolds

/-- R45 to R48, R58, R59, R61: a lane leaves STOPPED by LANE_START alone, and JAMMED by JAM_CLEAR and
the resets alone, to STOPPED; it enters DRAINING by LANE_STOP from RUNNING alone, and RUNNING by
LANE_START from STOPPED and DRAINING alone; a RUNNING lane stops by LANE_STOP and the resets alone, and a
DRAINING one by a retirement, a glitch and the resets alone. R57: a lane jams out of RUNNING and DRAINING
alone, or out of a start, and only by the steps that bring a cause: a backward step, a covered limit, an
ACT_STATUS frame, a pocket point, and those that place an ACT frame of the lane. -/
def Obligations.LaneStatesChangeByTheirSteps : Prop :=
  ∀ (i : Instr) (s t : State) (l : Lane), exec i s = .next t →
    let x := (s.lane l).state
    let y := (t.lane l).state
    (x = .stopped → y ≠ .stopped → i = .laneStart)
      ∧ (x = .jammed → y ≠ .jammed → y = .stopped ∧ (i = .jamClear ∨ resets i = true))
      ∧ (y = .draining → x ≠ .draining → x = .running ∧ i = .laneStop)
      ∧ (y = .running → x ≠ .running → (x = .stopped ∨ x = .draining) ∧ i = .laneStart)
      ∧ (x = .running → y = .stopped → i = .laneStop ∨ resets i = true)
      ∧ (x = .draining → y = .stopped → (∃ tag, i = .retirement l tag) ∨ i = .trailingEdge l ∨ resets i = true)
      ∧ (y = .jammed → x ≠ .jammed →
        (x = .running ∨ x = .draining ∨ x = .stopped ∧ i = .laneStart)
          ∧ (i = .beltStep l false ∨ i = .coveredLimit l ∨ (∃ unit, i = .actStatusFrame unit) ∨ i = .leadingEdge l
            ∨ i = .trailingEdge l ∨ i = .windowEnd l ∨ i = .laneStart ∨ i = .laneStop
            ∨ ∃ tag, i = .decisionPoint l tag ∨ i = .pocketPoint l tag ∨ i = .retirement l tag))
      ∧ (resets i = true → y = .stopped ∨ y = x)
end

