-- ==== Sys2Proof/Laws/State.lean ====
section
/-! SUPPORT. What each read of the state gives after each update of a field or of a member. -/

namespace Sys2Proof.Machine

/-! ### Families -/

@[simp] theorem PerLane.get_set {α : Type} (p : PerLane α) (l : Lane) (x : α) : (p.set l x).get l = x := by
  cases l <;> rfl

@[simp] theorem PerLane.get_set_other {α : Type} (p : PerLane α) (l : Lane) (x : α) :
    (p.set l x).get (otherLane l) = p.get (otherLane l) := by cases l <;> rfl

theorem PerLane.get_set_ne {α : Type} (p : PerLane α) {l m : Lane} (x : α) (h : m ≠ l) : (p.set l x).get m = p.get m := by
  cases l <;> cases m <;> first | rfl | exact absurd rfl h

theorem PerLane.get_set_eq {α : Type} (p : PerLane α) (l m : Lane) (x : α) :
    (p.set l x).get m = if m = l then x else p.get m := by
  cases l <;> cases m <;> rfl

@[simp] theorem PerLane.set_get {α : Type} (p : PerLane α) (l : Lane) : p.set l (p.get l) = p := by cases l <;> rfl

@[simp] theorem PerLane.set_set {α : Type} (p : PerLane α) (l : Lane) (x y : α) : (p.set l x).set l y = p.set l y := by
  cases l <;> rfl

@[simp] theorem PerHead.get_set {α : Type} (p : PerHead α) (h : HeadId) (x : α) : (p.set h x).get h = x := by
  cases h <;> rfl

theorem PerHead.get_set_eq {α : Type} (p : PerHead α) (h k : HeadId) (x : α) :
    (p.set h x).get k = if k = h then x else p.get k := by
  cases h <;> cases k <;> rfl

@[simp] theorem PerHead.set_get {α : Type} (p : PerHead α) (h : HeadId) : p.set h (p.get h) = p := by cases h <;> rfl

@[simp] theorem PerBand.get_set {α : Type} (p : PerBand α) (b : Band) (x : α) : (p.set b x).get b = x := by
  cases b <;> rfl

theorem PerBand.get_set_eq {α : Type} (p : PerBand α) (b c : Band) (x : α) :
    (p.set b x).get c = if c = b then x else p.get c := by
  cases b <;> cases c <;> rfl

@[simp] theorem PerBand.get_all {α : Type} (x : α) (b : Band) : (PerBand.all x).get b = x := by cases b <;> rfl

@[simp] theorem PerMonitor.get_set {α : Type} (p : PerMonitor α) (m : MonitorId) (x : α) : (p.set m x).get m = x := by
  cases m <;> rfl

theorem PerMonitor.get_set_eq {α : Type} (p : PerMonitor α) (m n : MonitorId) (x : α) :
    (p.set m x).get n = if n = m then x else p.get n := by
  cases m <;> cases n <;> rfl

/-- A member read after a member is replaced. -/
theorem vectorGet_set {α : Type} {n : Nat} (v : Vector α n) (i j : Fin n) (x : α) :
    (v.set i.val x i.isLt).get j = if j = i then x else v.get j := by
  by_cases h : j = i
  · subst h
    rw [if_pos rfl]
    exact Vector.getElem_set_self _
  · rw [if_neg h]
    exact Vector.getElem_set_ne _ _ fun hh => h (Fin.ext hh.symm)

@[simp] theorem vectorGet_set_self {α : Type} {n : Nat} (v : Vector α n) (i : Fin n) (x : α) :
    (v.set i.val x i.isLt).get i = x := by rw [vectorGet_set, if_pos rfl]

/-! ### One lane changed -/

@[simp] theorem State.modLane_lane (s : State) (l : Lane) (f : LaneS → LaneS) : (s.modLane l f).lane l = f (s.lane l) :=
  PerLane.get_set _ _ _

theorem State.modLane_lane_eq (s : State) (l m : Lane) (f : LaneS → LaneS) :
    (s.modLane l f).lane m = if m = l then f (s.lane l) else s.lane m := PerLane.get_set_eq _ _ _ _

theorem State.modLane_lane_ne (s : State) {l m : Lane} (f : LaneS → LaneS) (h : m ≠ l) : (s.modLane l f).lane m = s.lane m :=
  PerLane.get_set_ne _ _ h

@[simp] theorem State.modLane_link (s : State) (l : Lane) (f : LaneS → LaneS) : (s.modLane l f).link = s.link := rfl
@[simp] theorem State.modLane_interp (s : State) (l : Lane) (f : LaneS → LaneS) : (s.modLane l f).interp = s.interp := rfl
@[simp] theorem State.modLane_reports (s : State) (l : Lane) (f : LaneS → LaneS) : (s.modLane l f).reports = s.reports := rfl
@[simp] theorem State.modLane_scan (s : State) (l : Lane) (f : LaneS → LaneS) : (s.modLane l f).scan = s.scan := rfl
@[simp] theorem State.modLane_scorer (s : State) (l : Lane) (f : LaneS → LaneS) : (s.modLane l f).scorer = s.scorer := rfl
@[simp] theorem State.modLane_categories (s : State) (l : Lane) (f : LaneS → LaneS) :
    (s.modLane l f).categories = s.categories := rfl
@[simp] theorem State.modLane_store (s : State) (l : Lane) (f : LaneS → LaneS) : (s.modLane l f).store = s.store := rfl
@[simp] theorem State.modLane_date (s : State) (l : Lane) (f : LaneS → LaneS) : (s.modLane l f).date = s.date := rfl
@[simp] theorem State.modLane_resetActive (s : State) (l : Lane) (f : LaneS → LaneS) :
    (s.modLane l f).resetActive = s.resetActive := rfl
@[simp] theorem State.modLane_freeCount (s : State) (l : Lane) (f : LaneS → LaneS) :
    (s.modLane l f).freeCount = s.freeCount := rfl
@[simp] theorem State.modLane_pending (s : State) (l : Lane) (f : LaneS → LaneS) : (s.modLane l f).pending = s.pending := rfl

/-! ### Operations that change one lane only -/

@[simp] theorem State.count_eq (s : State) (l : Lane) (f : LaneCounters → LaneCounters) :
    s.count l f = s.modLane l (LaneS.count f) := rfl

/-- The changes of single lanes leave everything outside the lanes alone. -/
theorem State.modPiece_rest (s : State) (l : Lane) (t : Tag) (f : Piece → Piece) :
    { s.modPiece l t f with lanes := s.lanes } = s := rfl

@[simp] theorem State.head_modHead (s : State) (l : Lane) (h : HeadId) (f : Head → Head) :
    (s.modHead l h f).head l h = f (s.head l h) := by
  simp only [State.modHead, State.head, State.modLane_lane, PerHead.get_set]

@[simp] theorem State.pocket_modPocket (s : State) (l : Lane) (k : Fin 10) (f : Pocket → Pocket) :
    (s.modPocket l k f).pocket l k = f (s.pocket l k) := by
  simp only [State.modPocket, State.pocket, State.modLane_lane]
  exact Vector.getElem_set_self k.isLt

/-! ### Records of a list -/

/-- A write handed to the tracker changes no tag when its change does not. -/
theorem modTagged_tags (t : Tag) (f : Piece → Piece) (hf : ∀ p, (f p).tag = p.tag) (ps : List Piece) :
    (modTagged t f ps).map Piece.tag = ps.map Piece.tag := by
  induction ps with
  | nil => rfl
  | cons p ps ih => by_cases h : p.tag = t <;> simp_all [modTagged]

@[simp] theorem modTagged_length (t : Tag) (f : Piece → Piece) (ps : List Piece) : (modTagged t f ps).length = ps.length := by
  simp [modTagged]

/-! ### Latches and flags -/

@[simp] theorem State.setLatch_quiet (s : State) (x : Latch) : (s.setLatch x).quiet = s.quiet.setLatch x := rfl

/-- Setting a latch changes the latches only (R29). -/
@[simp] theorem State.setLatch_keeps (s : State) (x : Latch) :
    (s.setLatch x).link = s.link ∧ (s.setLatch x).interp = s.interp ∧ (s.setLatch x).lanes = s.lanes
      ∧ (s.setLatch x).scan = s.scan ∧ (s.setLatch x).scorer = s.scorer ∧ (s.setLatch x).categories = s.categories
      ∧ (s.setLatch x).store = s.store ∧ (s.setLatch x).date = s.date ∧ (s.setLatch x).resetActive = s.resetActive
      ∧ (s.setLatch x).freeCount = s.freeCount ∧ (s.setLatch x).pending = s.pending
      ∧ (s.setLatch x).reports.queued = s.reports.queued ∧ (s.setLatch x).reports.reserved = s.reports.reserved
      ∧ (s.setLatch x).reports.batch = s.reports.batch ∧ (s.setLatch x).reports.batchLevel = s.reports.batchLevel
      ∧ (s.setLatch x).reports.mask = s.reports.mask ∧ (s.setLatch x).reports.nextSerial = s.reports.nextSerial
      ∧ (s.setLatch x).reports.noticeLost = s.reports.noticeLost := by
  simp [State.setLatch]

end Sys2Proof.Machine
end

