-- ==== Sys2Proof/Laws/Outbound.lean ====
section
/-! SUPPORT. What the operations of the outbound side do: each leaves everything but the outbound
traffic and its own fields alone, and says which frames it adds to the traffic. -/

namespace Sys2Proof.Machine

/-! ### The arbiter (R12) -/

/-- Everything the arbiter can do: nothing, or one grant. -/
theorem State.arbitrate_cases (s : State) :
    s.arbitrate = s
      ∨ s.link.sending = none
        ∧ ((∃ l, s.arbitrate = s.grantAct l) ∨ s.arbitrate = s.grantPass ∨ s.arbitrate = s.grantReport) := by
  unfold State.arbitrate
  split
  · exact .inl rfl
  · rename_i hs
    refine .inr ⟨hs, ?_⟩
    split
    · exact .inl ⟨_, rfl⟩
    · split
      · right; left
        rename_i h1 h2
        simp [State.grantPass, h1]
      · exact .inr (.inl rfl)
      · exact .inr (.inr rfl)
      · split
        · exact .inr (.inl rfl)
        · exact .inr (.inr rfl)

/-- A grant to ACT touches the lane's queue and the transmitter only (R13). -/
@[simp] theorem State.grantAct_keeps (s : State) (l : Lane) :
    (s.grantAct l).link.station = s.link.station
      ∧ (s.grantAct l).link.mode = s.link.mode
      ∧ (s.grantAct l).link.controller = s.link.controller
      ∧ (s.grantAct l).link.counters = s.link.counters
      ∧ (s.grantAct l).link.fifo = s.link.fifo
      ∧ (s.grantAct l).reports = s.reports
      ∧ (s.grantAct l).interp = s.interp
      ∧ (s.grantAct l).lanes = s.lanes
      ∧ (s.grantAct l).scan = s.scan
      ∧ (s.grantAct l).scorer = s.scorer
      ∧ (s.grantAct l).categories = s.categories
      ∧ (s.grantAct l).store = s.store
      ∧ (s.grantAct l).date = s.date
      ∧ (s.grantAct l).resetActive = s.resetActive
      ∧ (s.grantAct l).freeCount = s.freeCount
      ∧ (s.grantAct l).pending = s.pending := by
  unfold State.grantAct; split <;> simp

/-- A grant to PASS touches the FIFO and the transmitter only (R13). -/
@[simp] theorem State.grantPass_keeps (s : State) :
    (s.grantPass).link.station = s.link.station
      ∧ (s.grantPass).link.mode = s.link.mode
      ∧ (s.grantPass).link.controller = s.link.controller
      ∧ (s.grantPass).link.counters = s.link.counters
      ∧ (s.grantPass).link.act = s.link.act
      ∧ (s.grantPass).reports = s.reports
      ∧ (s.grantPass).interp = s.interp
      ∧ (s.grantPass).lanes = s.lanes
      ∧ (s.grantPass).scan = s.scan
      ∧ (s.grantPass).scorer = s.scorer
      ∧ (s.grantPass).categories = s.categories
      ∧ (s.grantPass).store = s.store
      ∧ (s.grantPass).date = s.date
      ∧ (s.grantPass).resetActive = s.resetActive
      ∧ (s.grantPass).freeCount = s.freeCount
      ∧ (s.grantPass).pending = s.pending := by
  unfold State.grantPass; split <;> simp

/-- A grant to REPORT touches the queued frames and the transmitter only (R13). -/
@[simp] theorem State.grantReport_keeps (s : State) :
    (s.grantReport).link.station = s.link.station
      ∧ (s.grantReport).link.mode = s.link.mode
      ∧ (s.grantReport).link.controller = s.link.controller
      ∧ (s.grantReport).link.counters = s.link.counters
      ∧ (s.grantReport).link.act = s.link.act
      ∧ (s.grantReport).link.fifo = s.link.fifo
      ∧ (s.grantReport).reports.reserved = s.reports.reserved
      ∧ (s.grantReport).reports.batch = s.reports.batch
      ∧ (s.grantReport).reports.batchLevel = s.reports.batchLevel
      ∧ (s.grantReport).reports.mask = s.reports.mask
      ∧ (s.grantReport).reports.nextSerial = s.reports.nextSerial
      ∧ (s.grantReport).reports.noticeLost = s.reports.noticeLost
      ∧ (s.grantReport).reports.latches = s.reports.latches
      ∧ (s.grantReport).interp = s.interp
      ∧ (s.grantReport).lanes = s.lanes
      ∧ (s.grantReport).scan = s.scan
      ∧ (s.grantReport).scorer = s.scorer
      ∧ (s.grantReport).categories = s.categories
      ∧ (s.grantReport).store = s.store
      ∧ (s.grantReport).date = s.date
      ∧ (s.grantReport).resetActive = s.resetActive
      ∧ (s.grantReport).freeCount = s.freeCount
      ∧ (s.grantReport).pending = s.pending := by
  unfold State.grantReport; split <;> simp

/-- The arbiter touches the outbound side only (R12). -/
@[simp] theorem State.arbitrate_keeps (s : State) :
    (s.arbitrate).link.station = s.link.station
      ∧ (s.arbitrate).link.mode = s.link.mode
      ∧ (s.arbitrate).link.controller = s.link.controller
      ∧ (s.arbitrate).link.counters = s.link.counters
      ∧ (s.arbitrate).reports.reserved = s.reports.reserved
      ∧ (s.arbitrate).reports.batch = s.reports.batch
      ∧ (s.arbitrate).reports.batchLevel = s.reports.batchLevel
      ∧ (s.arbitrate).reports.mask = s.reports.mask
      ∧ (s.arbitrate).reports.nextSerial = s.reports.nextSerial
      ∧ (s.arbitrate).reports.noticeLost = s.reports.noticeLost
      ∧ (s.arbitrate).reports.latches = s.reports.latches
      ∧ (s.arbitrate).interp = s.interp
      ∧ (s.arbitrate).lanes = s.lanes
      ∧ (s.arbitrate).scan = s.scan
      ∧ (s.arbitrate).scorer = s.scorer
      ∧ (s.arbitrate).categories = s.categories
      ∧ (s.arbitrate).store = s.store
      ∧ (s.arbitrate).date = s.date
      ∧ (s.arbitrate).resetActive = s.resetActive
      ∧ (s.arbitrate).freeCount = s.freeCount
      ∧ (s.arbitrate).pending = s.pending := by
  rcases s.arbitrate_cases with h | ⟨_, ⟨l, h⟩ | h | h⟩ <;> simp [h]

/-- The arbiter changes nothing but the outbound traffic (R12). -/
@[simp] theorem State.arbitrate_quiet (s : State) : s.arbitrate.quiet = s.quiet := by
  simp [State.quiet]

/-- A lane read after the arbiter. -/
@[simp] theorem State.arbitrate_lane (s : State) (l : Lane) : s.arbitrate.lane l = s.lane l := by
  simp [State.lane]

/-! ### The traffic under the arbiter -/

/-- A frame of a lane's ACT queue is no report, and of no other lane. -/
theorem OutFrame.forLane_isReport {l : Lane} {f : OutFrame} (h : f.forLane l = true) : f.isReport = false := by
  unfold OutFrame.forLane at h
  unfold OutFrame.isReport
  split at h <;> simp_all

/-- A report frame is of no lane. -/
theorem OutFrame.isReport_forLane {l : Lane} {f : OutFrame} (h : f.isReport = true) : f.forLane l = false := by
  unfold OutFrame.isReport at h
  unfold OutFrame.forLane
  split at h <;> simp_all

/-- A frame of one lane is not of another. -/
theorem OutFrame.forLane_ne {l m : Lane} {f : OutFrame} (h : f.forLane l = true) (hne : m ≠ l) : f.forLane m = false := by
  unfold OutFrame.forLane at *
  split at h <;> simp_all
  exact fun h' => hne h'.symm

/-- Two parts with the same outbound traffic. -/
def SameTraffic (t s : State) : Prop :=
  t.reportTraffic = s.reportTraffic ∧ (∀ l, t.actTraffic l = s.actTraffic l) ∧ t.passTraffic = s.passTraffic

/-- A grant moves one frame into the transmitter: the traffic is the same (R13). -/
theorem State.grantAct_traffic {s : State} (hf : s.FramesFiled) (hs : s.link.sending = none) (l : Lane) :
    SameTraffic (s.grantAct l) s ∧ (s.grantAct l).FramesFiled := by
  unfold State.grantAct
  split
  · exact ⟨⟨rfl, fun _ => rfl, rfl⟩, hf⟩
  · rename_i f fs h
    have hl : f.forLane l = true := hf.act l f (by simp [h])
    refine ⟨⟨?_, fun m => ?_, ?_⟩, ⟨fun m g hg => ?_, hf.reports⟩⟩
    · simp [State.reportTraffic, Link.sendingOwn, hs, OutFrame.forLane_isReport hl]
    · by_cases hm : m = l
      · subst hm; simp [State.actTraffic, Link.sendingOwn, hs, h, hl]
      · simp [State.actTraffic, Link.sendingOwn, hs, PerLane.get_set_ne _ _ hm, OutFrame.forLane_ne hl hm]
    · simp [State.passTraffic, Link.sendingPassed, hs]
    · by_cases hm : m = l
      · subst hm; exact hf.act m g (by simp at hg; simp [h, hg])
      · rw [PerLane.get_set_ne _ _ hm] at hg; exact hf.act m g hg

/-- A grant to PASS leaves the traffic the same (R13). -/
theorem State.grantPass_traffic {s : State} (hf : s.FramesFiled) (hs : s.link.sending = none) :
    SameTraffic s.grantPass s ∧ s.grantPass.FramesFiled := by
  unfold State.grantPass
  split
  · exact ⟨⟨rfl, fun _ => rfl, rfl⟩, hf⟩
  · rename_i u us h
    refine ⟨⟨?_, fun m => ?_, ?_⟩, ⟨hf.act, hf.reports⟩⟩
    · simp [State.reportTraffic, Link.sendingOwn, hs]
    · simp [State.actTraffic, Link.sendingOwn, hs]
    · simp [State.passTraffic, Link.sendingPassed, hs, h]

/-- A grant to REPORT leaves the traffic the same (R13). -/
theorem State.grantReport_traffic {s : State} (hf : s.FramesFiled) (hs : s.link.sending = none) :
    SameTraffic s.grantReport s ∧ s.grantReport.FramesFiled := by
  unfold State.grantReport
  split
  · exact ⟨⟨rfl, fun _ => rfl, rfl⟩, hf⟩
  · rename_i f fs h
    have hr : f.isReport = true := hf.reports f (by simp [h])
    refine ⟨⟨?_, fun m => ?_, ?_⟩, ⟨hf.act, fun g hg => hf.reports g (by simp at hg; simp [h, hg])⟩⟩
    · simp [State.reportTraffic, Link.sendingOwn, hs, h, hr]
    · simp [State.actTraffic, Link.sendingOwn, hs, OutFrame.isReport_forLane hr]
    · simp [State.passTraffic, Link.sendingPassed, hs]

/-- The arbiter leaves the traffic the same, and the queues sorted by kind (R12, R13). -/
theorem State.arbitrate_traffic {s : State} (hf : s.FramesFiled) : SameTraffic s.arbitrate s ∧ s.arbitrate.FramesFiled := by
  rcases s.arbitrate_cases with h | ⟨hs, ⟨l, h⟩ | h | h⟩ <;> rw [h]
  · exact ⟨⟨rfl, fun _ => rfl, rfl⟩, hf⟩
  · exact State.grantAct_traffic hf hs l
  · exact State.grantPass_traffic hf hs
  · exact State.grantReport_traffic hf hs

/-- While the transmitter is busy the arbiter does nothing (R12). -/
theorem State.arbitrate_busy {s : State} {x : Outgoing} (h : s.link.sending = some x) : s.arbitrate = s := by
  simp [State.arbitrate, h]

/-! ### Frames that join a queue -/

/-- An ACT frame that joins its queue touches the outbound side only (R11). -/
@[simp] theorem State.joinAct_keeps (s : State) (l : Lane) (m : ActMsg) :
    (s.joinAct l m).link.station = s.link.station
      ∧ (s.joinAct l m).link.mode = s.link.mode
      ∧ (s.joinAct l m).link.controller = s.link.controller
      ∧ (s.joinAct l m).link.counters = s.link.counters
      ∧ (s.joinAct l m).reports.reserved = s.reports.reserved
      ∧ (s.joinAct l m).reports.batch = s.reports.batch
      ∧ (s.joinAct l m).reports.batchLevel = s.reports.batchLevel
      ∧ (s.joinAct l m).reports.mask = s.reports.mask
      ∧ (s.joinAct l m).reports.nextSerial = s.reports.nextSerial
      ∧ (s.joinAct l m).reports.noticeLost = s.reports.noticeLost
      ∧ (s.joinAct l m).reports.latches = s.reports.latches
      ∧ (s.joinAct l m).interp = s.interp
      ∧ (s.joinAct l m).lanes = s.lanes
      ∧ (s.joinAct l m).scan = s.scan
      ∧ (s.joinAct l m).scorer = s.scorer
      ∧ (s.joinAct l m).categories = s.categories
      ∧ (s.joinAct l m).store = s.store
      ∧ (s.joinAct l m).date = s.date
      ∧ (s.joinAct l m).resetActive = s.resetActive
      ∧ (s.joinAct l m).freeCount = s.freeCount
      ∧ (s.joinAct l m).pending = s.pending := by
  simp [State.joinAct]

/-- Emptying an ACT queue touches that queue only (R11). -/
@[simp] theorem State.emptyAct_keeps (s : State) (l : Lane) :
    (s.emptyAct l).link.station = s.link.station
      ∧ (s.emptyAct l).link.mode = s.link.mode
      ∧ (s.emptyAct l).link.controller = s.link.controller
      ∧ (s.emptyAct l).link.counters = s.link.counters
      ∧ (s.emptyAct l).link.fifo = s.link.fifo
      ∧ (s.emptyAct l).link.sending = s.link.sending
      ∧ (s.emptyAct l).reports = s.reports
      ∧ (s.emptyAct l).interp = s.interp
      ∧ (s.emptyAct l).lanes = s.lanes
      ∧ (s.emptyAct l).scan = s.scan
      ∧ (s.emptyAct l).scorer = s.scorer
      ∧ (s.emptyAct l).categories = s.categories
      ∧ (s.emptyAct l).store = s.store
      ∧ (s.emptyAct l).date = s.date
      ∧ (s.emptyAct l).resetActive = s.resetActive
      ∧ (s.emptyAct l).freeCount = s.freeCount
      ∧ (s.emptyAct l).pending = s.pending := by
  simp [State.emptyAct]

/-- A frame that becomes queued touches the outbound side only (R23). -/
@[simp] theorem State.queueReport_keeps (s : State) (f : OutFrame) :
    (s.queueReport f).link.station = s.link.station
      ∧ (s.queueReport f).link.mode = s.link.mode
      ∧ (s.queueReport f).link.controller = s.link.controller
      ∧ (s.queueReport f).link.counters = s.link.counters
      ∧ (s.queueReport f).reports.reserved = s.reports.reserved
      ∧ (s.queueReport f).reports.batch = s.reports.batch
      ∧ (s.queueReport f).reports.batchLevel = s.reports.batchLevel
      ∧ (s.queueReport f).reports.mask = s.reports.mask
      ∧ (s.queueReport f).reports.nextSerial = s.reports.nextSerial
      ∧ (s.queueReport f).reports.noticeLost = s.reports.noticeLost
      ∧ (s.queueReport f).reports.latches = s.reports.latches
      ∧ (s.queueReport f).interp = s.interp
      ∧ (s.queueReport f).lanes = s.lanes
      ∧ (s.queueReport f).scan = s.scan
      ∧ (s.queueReport f).scorer = s.scorer
      ∧ (s.queueReport f).categories = s.categories
      ∧ (s.queueReport f).store = s.store
      ∧ (s.queueReport f).date = s.date
      ∧ (s.queueReport f).resetActive = s.resetActive
      ∧ (s.queueReport f).freeCount = s.freeCount
      ∧ (s.queueReport f).pending = s.pending := by
  simp [State.queueReport]

/-- A response touches the outbound side and its reservation only (R21). -/
@[simp] theorem State.respond_keeps (s : State) (c : Cmd) (rc : ResponseCode) (d : List Byte) :
    (s.respond c rc d).link.station = s.link.station
      ∧ (s.respond c rc d).link.mode = s.link.mode
      ∧ (s.respond c rc d).link.controller = s.link.controller
      ∧ (s.respond c rc d).link.counters = s.link.counters
      ∧ (s.respond c rc d).reports.batch = s.reports.batch
      ∧ (s.respond c rc d).reports.batchLevel = s.reports.batchLevel
      ∧ (s.respond c rc d).reports.mask = s.reports.mask
      ∧ (s.respond c rc d).reports.nextSerial = s.reports.nextSerial
      ∧ (s.respond c rc d).reports.noticeLost = s.reports.noticeLost
      ∧ (s.respond c rc d).reports.latches = s.reports.latches
      ∧ (s.respond c rc d).interp = s.interp
      ∧ (s.respond c rc d).lanes = s.lanes
      ∧ (s.respond c rc d).scan = s.scan
      ∧ (s.respond c rc d).scorer = s.scorer
      ∧ (s.respond c rc d).categories = s.categories
      ∧ (s.respond c rc d).store = s.store
      ∧ (s.respond c rc d).date = s.date
      ∧ (s.respond c rc d).resetActive = s.resetActive
      ∧ (s.respond c rc d).freeCount = s.freeCount
      ∧ (s.respond c rc d).pending = s.pending := by
  simp [State.respond]

@[simp] theorem State.respond_reserved (s : State) (c : Cmd) (rc : ResponseCode) (d : List Byte) :
    (s.respond c rc d).reports.reserved = s.reports.reserved - 1 := by simp [State.respond]

/-- A completion touches the outbound side, its reservation and the interpreter only (R19, R21). -/
@[simp] theorem State.complete_keeps (s : State) (c : Cmd) (rc : ResponseCode) (d : List Byte) :
    (s.complete c rc d).link.station = s.link.station
      ∧ (s.complete c rc d).link.mode = s.link.mode
      ∧ (s.complete c rc d).link.controller = s.link.controller
      ∧ (s.complete c rc d).link.counters = s.link.counters
      ∧ (s.complete c rc d).reports.batch = s.reports.batch
      ∧ (s.complete c rc d).reports.batchLevel = s.reports.batchLevel
      ∧ (s.complete c rc d).reports.mask = s.reports.mask
      ∧ (s.complete c rc d).reports.nextSerial = s.reports.nextSerial
      ∧ (s.complete c rc d).reports.noticeLost = s.reports.noticeLost
      ∧ (s.complete c rc d).reports.latches = s.reports.latches
      ∧ (s.complete c rc d).lanes = s.lanes
      ∧ (s.complete c rc d).scan = s.scan
      ∧ (s.complete c rc d).scorer = s.scorer
      ∧ (s.complete c rc d).categories = s.categories
      ∧ (s.complete c rc d).store = s.store
      ∧ (s.complete c rc d).date = s.date
      ∧ (s.complete c rc d).resetActive = s.resetActive
      ∧ (s.complete c rc d).freeCount = s.freeCount
      ∧ (s.complete c rc d).pending = s.pending
      ∧ (s.complete c rc d).interp.queue = s.interp.queue := by
  simp [State.complete]

@[simp] theorem State.complete_reserved (s : State) (c : Cmd) (rc : ResponseCode) (d : List Byte) :
    (s.complete c rc d).reports.reserved = s.reports.reserved - 1 := by simp [State.complete]

@[simp] theorem State.complete_executing (s : State) (c : Cmd) (rc : ResponseCode) (d : List Byte) :
    (s.complete c rc d).interp.executing = none := by simp [State.complete]

@[simp] theorem State.joinAct_lane (s : State) (l : Lane) (a : ActMsg) (m : Lane) : (s.joinAct l a).lane m = s.lane m := by simp [State.lane]

@[simp] theorem State.emptyAct_lane (s : State) (l : Lane) (m : Lane) : (s.emptyAct l).lane m = s.lane m := by simp [State.lane]

@[simp] theorem State.queueReport_lane (s : State) (f : OutFrame) (m : Lane) : (s.queueReport f).lane m = s.lane m := by simp [State.lane]

@[simp] theorem State.complete_lane (s : State) (c : Cmd) (rc : ResponseCode) (d : List Byte) (m : Lane) : (s.complete c rc d).lane m = s.lane m := by simp [State.lane]

@[simp] theorem State.setLatch_lane (s : State) (x : Latch) (m : Lane) : (s.setLatch x).lane m = s.lane m := by simp [State.lane]

/-- A queued frame is the last of the report traffic, and the rest of the part is as it was (R23). -/
theorem State.queueReport_spec {s : State} (hf : s.FramesFiled) {f : OutFrame} (h : f.isReport = true) :
    (s.queueReport f).quiet = s.quiet ∧ (s.queueReport f).reportTraffic = s.reportTraffic ++ [f]
      ∧ (∀ l, (s.queueReport f).actTraffic l = s.actTraffic l) ∧ (s.queueReport f).passTraffic = s.passTraffic
      ∧ (s.queueReport f).FramesFiled := by
  have hg : State.FramesFiled { s with reports := { s.reports with queued := s.reports.queued ++ [f] } } :=
    ⟨hf.act, fun g hg => by
      rcases List.mem_append.1 hg with h1 | h1
      · exact hf.reports g h1
      · simp at h1; exact h1 ▸ h⟩
  obtain ⟨⟨h1, h2, h3⟩, h4⟩ := State.arbitrate_traffic hg
  refine ⟨by simp [State.queueReport, State.quiet], ?_, ?_, ?_, h4⟩
  · rw [State.queueReport, h1]; simp [State.reportTraffic]
  · exact fun l => by rw [State.queueReport, h2]; rfl
  · rw [State.queueReport, h3]; rfl

/-- An ACT frame that joins is the last of its lane's traffic, and the rest of the part is as it was
(R11). -/
theorem State.joinAct_spec {s : State} (hf : s.FramesFiled) (l : Lane) (m : ActMsg) :
    (s.joinAct l m).quiet = s.quiet ∧ (s.joinAct l m).reportTraffic = s.reportTraffic
      ∧ (∀ k, (s.joinAct l m).actTraffic k = s.actTraffic k ++ (if k = l then [s.actFrame l m] else []))
      ∧ (s.joinAct l m).passTraffic = s.passTraffic ∧ (s.joinAct l m).FramesFiled := by
  have hl : (s.actFrame l m).forLane l = true := by simp [State.actFrame, OutFrame.forLane]
  have hg : State.FramesFiled
      { s with link := { s.link with act := s.link.act.set l (s.link.act.get l ++ [s.actFrame l m]) } } :=
    ⟨fun k g hg => by
      by_cases hk : k = l
      · subst hk
        rw [PerLane.get_set] at hg
        rcases List.mem_append.1 hg with h1 | h1
        · exact hf.act k g h1
        · simp at h1; exact h1 ▸ hl
      · rw [PerLane.get_set_ne _ _ hk] at hg; exact hf.act k g hg, hf.reports⟩
  obtain ⟨⟨h1, h2, h3⟩, h4⟩ := State.arbitrate_traffic hg
  refine ⟨by simp [State.joinAct, State.quiet], ?_, ?_, ?_, h4⟩
  · rw [State.joinAct, h1]; rfl
  · intro k
    rw [State.joinAct, h2]
    by_cases hk : k = l
    · subst hk; simp [State.actTraffic, Link.sendingOwn]
    · simp [State.actTraffic, Link.sendingOwn, hk, PerLane.get_set_ne _ _ hk]
  · rw [State.joinAct, h3]; rfl

/-! ### Notices (R24) -/

/-- A lost notice touches NOTICE_LOST and its latch only (R24). -/
@[simp] theorem State.loseNotice_keeps (s : State) :
    (s.loseNotice).link = s.link
      ∧ (s.loseNotice).reports.queued = s.reports.queued
      ∧ (s.loseNotice).reports.nextSerial = s.reports.nextSerial
      ∧ (s.loseNotice).reports.reserved = s.reports.reserved
      ∧ (s.loseNotice).reports.batch = s.reports.batch
      ∧ (s.loseNotice).reports.batchLevel = s.reports.batchLevel
      ∧ (s.loseNotice).reports.mask = s.reports.mask
      ∧ (s.loseNotice).interp = s.interp
      ∧ (s.loseNotice).lanes = s.lanes
      ∧ (s.loseNotice).scan = s.scan
      ∧ (s.loseNotice).scorer = s.scorer
      ∧ (s.loseNotice).categories = s.categories
      ∧ (s.loseNotice).store = s.store
      ∧ (s.loseNotice).date = s.date
      ∧ (s.loseNotice).resetActive = s.resetActive
      ∧ (s.loseNotice).freeCount = s.freeCount
      ∧ (s.loseNotice).pending = s.pending := by
  simp [State.loseNotice]

/-- A built notice touches the Report Queue's own fields and the outbound side only (R24). -/
@[simp] theorem State.postNotice_keeps (s : State) (d : Station) (m : NoticeMsg) :
    (s.postNotice d m).link.station = s.link.station
      ∧ (s.postNotice d m).link.mode = s.link.mode
      ∧ (s.postNotice d m).link.controller = s.link.controller
      ∧ (s.postNotice d m).link.counters = s.link.counters
      ∧ (s.postNotice d m).reports.reserved = s.reports.reserved
      ∧ (s.postNotice d m).reports.batch = s.reports.batch
      ∧ (s.postNotice d m).reports.batchLevel = s.reports.batchLevel
      ∧ (s.postNotice d m).reports.mask = s.reports.mask
      ∧ (s.postNotice d m).interp = s.interp
      ∧ (s.postNotice d m).lanes = s.lanes
      ∧ (s.postNotice d m).scan = s.scan
      ∧ (s.postNotice d m).scorer = s.scorer
      ∧ (s.postNotice d m).categories = s.categories
      ∧ (s.postNotice d m).store = s.store
      ∧ (s.postNotice d m).date = s.date
      ∧ (s.postNotice d m).resetActive = s.resetActive
      ∧ (s.postNotice d m).freeCount = s.freeCount
      ∧ (s.postNotice d m).pending = s.pending := by
  unfold State.postNotice; dsimp only; split <;> simp

/-- A built notice takes the next serial (R24). -/
@[simp] theorem State.postNotice_serial (s : State) (d : Station) (m : NoticeMsg) :
    (s.postNotice d m).reports.nextSerial = s.reports.nextSerial + 1 := by
  unfold State.postNotice; dsimp only; split <;> simp

/-- A notice of a class touches the Report Queue's own fields and the outbound side only (R24). -/
@[simp] theorem State.notice_keeps (s : State) (k : NoticeClass) (m : NoticeMsg) :
    (s.notice k m).link.station = s.link.station
      ∧ (s.notice k m).link.mode = s.link.mode
      ∧ (s.notice k m).link.controller = s.link.controller
      ∧ (s.notice k m).link.counters = s.link.counters
      ∧ (s.notice k m).reports.reserved = s.reports.reserved
      ∧ (s.notice k m).reports.batch = s.reports.batch
      ∧ (s.notice k m).reports.batchLevel = s.reports.batchLevel
      ∧ (s.notice k m).reports.mask = s.reports.mask
      ∧ (s.notice k m).interp = s.interp
      ∧ (s.notice k m).lanes = s.lanes
      ∧ (s.notice k m).scan = s.scan
      ∧ (s.notice k m).scorer = s.scorer
      ∧ (s.notice k m).categories = s.categories
      ∧ (s.notice k m).store = s.store
      ∧ (s.notice k m).date = s.date
      ∧ (s.notice k m).resetActive = s.resetActive
      ∧ (s.notice k m).freeCount = s.freeCount
      ∧ (s.notice k m).pending = s.pending := by
  unfold State.notice; split <;> simp

@[simp] theorem State.notice_lane (s : State) (k : NoticeClass) (n : NoticeMsg) (m : Lane) : (s.notice k n).lane m = s.lane m := by simp [State.lane]

/-- Closing the batch touches the Report Queue's own fields and the outbound side only (R26). -/
@[simp] theorem State.closeBatch_keeps (s : State) :
    (s.closeBatch).link.station = s.link.station
      ∧ (s.closeBatch).link.mode = s.link.mode
      ∧ (s.closeBatch).link.controller = s.link.controller
      ∧ (s.closeBatch).link.counters = s.link.counters
      ∧ (s.closeBatch).reports.reserved = s.reports.reserved
      ∧ (s.closeBatch).reports.batchLevel = s.reports.batchLevel
      ∧ (s.closeBatch).reports.mask = s.reports.mask
      ∧ (s.closeBatch).interp = s.interp
      ∧ (s.closeBatch).lanes = s.lanes
      ∧ (s.closeBatch).scan = s.scan
      ∧ (s.closeBatch).scorer = s.scorer
      ∧ (s.closeBatch).categories = s.categories
      ∧ (s.closeBatch).store = s.store
      ∧ (s.closeBatch).date = s.date
      ∧ (s.closeBatch).resetActive = s.resetActive
      ∧ (s.closeBatch).freeCount = s.freeCount
      ∧ (s.closeBatch).pending = s.pending := by
  unfold State.closeBatch; split <;> simp

/-- A closed batch is empty (R26). -/
@[simp] theorem State.closeBatch_batch (s : State) : s.closeBatch.reports.batch = [] := by
  unfold State.closeBatch; split <;> simp_all

@[simp] theorem State.closeBatch_lane (s : State) (m : Lane) : (s.closeBatch).lane m = s.lane m := by simp [State.lane]

/-- A piece report record touches the Report Queue's own fields and the outbound side only (R26). -/
@[simp] theorem State.appendReport_keeps (s : State) (r : PieceReport) :
    (s.appendReport r).link.station = s.link.station
      ∧ (s.appendReport r).link.mode = s.link.mode
      ∧ (s.appendReport r).link.controller = s.link.controller
      ∧ (s.appendReport r).link.counters = s.link.counters
      ∧ (s.appendReport r).reports.reserved = s.reports.reserved
      ∧ (s.appendReport r).reports.batchLevel = s.reports.batchLevel
      ∧ (s.appendReport r).reports.mask = s.reports.mask
      ∧ (s.appendReport r).interp = s.interp
      ∧ (s.appendReport r).lanes = s.lanes
      ∧ (s.appendReport r).scan = s.scan
      ∧ (s.appendReport r).scorer = s.scorer
      ∧ (s.appendReport r).categories = s.categories
      ∧ (s.appendReport r).store = s.store
      ∧ (s.appendReport r).date = s.date
      ∧ (s.appendReport r).resetActive = s.resetActive
      ∧ (s.appendReport r).freeCount = s.freeCount
      ∧ (s.appendReport r).pending = s.pending := by
  unfold State.appendReport; split; dsimp only; split <;> simp; simp

@[simp] theorem State.appendReport_lane (s : State) (r : PieceReport) (m : Lane) : (s.appendReport r).lane m = s.lane m := by simp [State.lane]

/-! ### The slots of the Report Queue (R23) -/

/-- The arbiter leaves at most as many frames queued as there were. -/
theorem State.arbitrate_queued_le (s : State) : s.arbitrate.reports.queued.length ≤ s.reports.queued.length := by
  rcases s.arbitrate_cases with h | ⟨_, ⟨l, h⟩ | h | h⟩ <;> rw [h]
  · simp
  · simp
  · unfold State.grantReport; split <;> simp_all

/-- A frame that becomes queued takes one slot at most. -/
theorem State.queueReport_queued_le (s : State) (f : OutFrame) :
    (s.queueReport f).reports.queued.length ≤ s.reports.queued.length + 1 :=
  (State.arbitrate_queued_le _).trans (by simp)

/-- A built notice keeps queued frames and reserved slots within 32 (R23, R24). -/
theorem State.postNotice_fit (s : State) (d : Station) (m : NoticeMsg)
    (h : s.reports.queued.length + s.reports.reserved ≤ Config.reportSlots) :
    (s.postNotice d m).reports.queued.length + (s.postNotice d m).reports.reserved ≤ Config.reportSlots := by
  rw [(State.postNotice_keeps s d m).2.2.2.2.1]
  unfold State.postNotice
  dsimp only
  split
  · rename_i hs
    have h1 := State.queueReport_queued_le
      { s with reports := { s.reports with nextSerial := s.reports.nextSerial + 1 } }
      { dest := d, src := s.link.station, body := .notice s.reports.nextSerial m }
    simp only [State.slotFree, decide_eq_true_eq] at hs
    dsimp only at h1
    omega
  · simp; exact h

/-- A notice of a class keeps queued frames and reserved slots within 32 (R23, R24). -/
theorem State.notice_fit (s : State) (k : NoticeClass) (m : NoticeMsg)
    (h : s.reports.queued.length + s.reports.reserved ≤ Config.reportSlots) :
    (s.notice k m).reports.queued.length + (s.notice k m).reports.reserved ≤ Config.reportSlots := by
  unfold State.notice
  split
  · exact State.postNotice_fit s _ m h
  · exact h

end Sys2Proof.Machine
end

