-- ==== Sys2Proof/Laws/Commands.lean ====
section
/-! SUPPORT. What every completion of a command has in common: which branch of the checks is taken, and
what a response does. -/

namespace Sys2Proof.Machine

/-- While no command of a code is executing, its completion changes nothing. -/
theorem State.completion_none {α : Type} {s : State} {code : Byte} (parse : List Byte → Args α)
    (act : State → Cmd → α → State) (h : ∀ c, s.interp.executing = some c → c.code ≠ code) :
    s.completion code parse act = s := by
  unfold State.completion State.executingCode
  cases he : s.interp.executing with
  | none => simp
  | some c => simp [Option.filter, h c he]

/-- A completion whose arguments have the wrong length (R20.2). -/
theorem State.completion_wrongLength {α : Type} {s : State} {code : Byte} {c : Cmd} {parse : List Byte → Args α}
    (act : State → Cmd → α → State) (he : Executing s code c) (h : parse c.args = .wrongLength) :
    s.completion code parse act = s.complete c .badCommand [] := by
  have := he.code
  subst this
  simp [State.completion, State.executingCode, he.running, Option.filter, h]

/-- A completion with a field out of range (R20.3). -/
theorem State.completion_outOfRange {α : Type} {s : State} {code : Byte} {c : Cmd} {parse : List Byte → Args α}
    (act : State → Cmd → α → State) (he : Executing s code c) (h : parse c.args = .outOfRange) :
    s.completion code parse act = s.complete c .badArgument [] := by
  have := he.code
  subst this
  simp [State.completion, State.executingCode, he.running, Option.filter, h]

/-- A completion whose arguments pass the checks is carried out by its owning block (R20). -/
theorem State.completion_valid {α : Type} {s : State} {code : Byte} {c : Cmd} {parse : List Byte → Args α}
    (act : State → Cmd → α → State) {a : α} (he : Executing s code c) (h : parse c.args = .valid a) :
    s.completion code parse act = act s c a := by
  have := he.code
  subst this
  simp [State.completion, State.executingCode, he.running, Option.filter, h]

/-- A response after an effect on the part that touches no traffic (R21). -/
theorem State.complete_spec {s u : State} (c : Cmd) (rc : ResponseCode) (d : List Byte) (hf : u.FramesFiled) (fs : List OutFrame)
    (hr : u.reportTraffic = s.reportTraffic ++ fs) (ha : ∀ l, u.actTraffic l = s.actTraffic l)
    (hp : u.passTraffic = s.passTraffic) :
    (u.complete c rc d).quiet = u.answered.quiet
      ∧ (u.complete c rc d).reportTraffic = s.reportTraffic ++ (fs ++ [u.response c rc d])
      ∧ (∀ l, (u.complete c rc d).actTraffic l = s.actTraffic l ++ noActs l)
      ∧ (u.complete c rc d).passTraffic = s.passTraffic := by
  have hu : u.answered.FramesFiled := ⟨hf.act, hf.reports⟩
  obtain ⟨h1, h2, h3, h4, _⟩ := State.queueReport_spec (f := u.response c rc d) hu rfl
  have e : u.complete c rc d = u.answered.queueReport (u.response c rc d) := rfl
  rw [e]
  refine ⟨h1, h2.trans ?_, fun l => (h3 l).trans ?_, h4.trans hp⟩
  · rw [show u.answered.reportTraffic = u.reportTraffic from rfl, hr, List.append_assoc]
  · rw [show u.answered.actTraffic l = u.actTraffic l from rfl, ha l]; simp [noActs]

/-- A notice of a class: what it changes, and its frame (R24). -/
theorem State.notice_spec {s : State} (hf : s.FramesFiled) (k : NoticeClass) (m : NoticeMsg) :
    (s.notice k m).quiet = (s.noted k).quiet ∧ (s.notice k m).reportTraffic = s.reportTraffic ++ s.noticeFrames k m
      ∧ (∀ l, (s.notice k m).actTraffic l = s.actTraffic l) ∧ (s.notice k m).passTraffic = s.passTraffic
      ∧ (s.notice k m).FramesFiled := by
  unfold State.notice State.noted State.noticeFrames
  by_cases hc : s.classOn k
  · by_cases hs : s.slotFree
    · simp only [hc, hs, State.postNotice, if_true, Bool.and_self]
      exact State.queueReport_spec
        (s := { s with reports := { s.reports with nextSerial := s.reports.nextSerial + 1 } }) ⟨hf.act, hf.reports⟩ rfl
    · simp only [hc, hs, State.postNotice, if_true, Bool.false_eq_true, if_false, Bool.and_false]
      refine ⟨rfl, ?_, fun _ => rfl, rfl, ⟨hf.act, hf.reports⟩⟩
      exact (List.append_nil _).symm
  · simp only [hc, Bool.false_eq_true, if_false, Bool.false_and]
    exact ⟨trivial, (List.append_nil _).symm, fun _ => trivial, trivial, hf⟩

/-- Closing the open batch: what it changes, and its PIECE notice (R26). -/
theorem State.closeBatch_spec {s : State} (hf : s.FramesFiled) :
    s.closeBatch.quiet = s.batchClosed.quiet ∧ s.closeBatch.reportTraffic = s.reportTraffic ++ s.batchFrames
      ∧ (∀ l, s.closeBatch.actTraffic l = s.actTraffic l) ∧ s.closeBatch.passTraffic = s.passTraffic
      ∧ s.closeBatch.FramesFiled := by
  unfold State.closeBatch State.batchClosed State.batchFrames
  split
  · rename_i h
    simp only [h, if_true]
    exact ⟨trivial, (List.append_nil _).symm, fun _ => trivial, trivial, hf⟩
  · rename_i r rs h
    have hne : s.reports.batch ≠ [] := by simp [h]
    simp only [if_neg hne]
    obtain ⟨h1, h2, h3, h4, h5⟩ := State.notice_spec (s := { s with reports := { s.reports with batch := [] } })
      ⟨hf.act, hf.reports⟩ .piece (.piece (r :: rs))
    refine ⟨h1.trans ?_, ?_, h3, h4, h5⟩
    · unfold State.noted
      have e1 : State.classOn { s with reports := { s.reports with batch := [] } } .piece = s.classOn .piece := rfl
      have e2 : State.slotFree { s with reports := { s.reports with batch := [] } } = s.slotFree := rfl
      rw [e1, e2]
      split <;> [split; skip] <;> rfl
    · rw [h2, ← h]; rfl

end Sys2Proof.Machine
end

