-- ==== Sys2Proof/Laws/Effects.lean ====
section
/-! SUPPORT. What an operation does, said once: the part it leaves, traffic aside, the frames it adds,
and the room it takes; and how operations are put one after another. -/

namespace Sys2Proof.Machine

/-- From the part `s`, an operation leaves `t`: it equals `u` but for the outbound traffic, to which
the named frames are added, and every queue holds at most that many frames more. -/
structure Effect (s t u : State) (rs : List OutFrame) (as : Lane → List OutFrame) : Prop where
  quiet : t.quiet = u.quiet
  reports : t.reportTraffic = s.reportTraffic ++ rs
  acts : ∀ l, t.actTraffic l = s.actTraffic l ++ as l
  pass : t.passTraffic = s.passTraffic
  filed : t.FramesFiled
  slots : t.reports.queued.length ≤ s.reports.queued.length + rs.length
  places : ∀ l, (t.link.act.get l).length ≤ (s.link.act.get l).length + (as l).length

/-- The frames of two operations for each lane. -/
def bothActs (a b : Lane → List OutFrame) : Lane → List OutFrame := fun l => a l ++ b l

@[simp] theorem bothActs_noActs_left (a : Lane → List OutFrame) : bothActs noActs a = a := by funext l; simp [bothActs, noActs]

@[simp] theorem bothActs_noActs_right (a : Lane → List OutFrame) : bothActs a noActs = a := by funext l; simp [bothActs, noActs]

@[simp] theorem actsFor_nil (l : Lane) : actsFor l [] = noActs := by funext m; simp [actsFor, noActs]

theorem bothActs_actsFor (l : Lane) (a b : List OutFrame) : bothActs (actsFor l a) (actsFor l b) = actsFor l (a ++ b) := by
  funext m; by_cases h : m = l <;> simp [bothActs, actsFor, h]

/-- Two parts that agree but for the outbound traffic. -/
theorem State.quiet_fields {t u : State} (h : t.quiet = u.quiet) :
    t.link.station = u.link.station ∧ t.link.mode = u.link.mode ∧ t.link.controller = u.link.controller
      ∧ t.link.counters = u.link.counters ∧ t.interp = u.interp ∧ t.lanes = u.lanes ∧ t.scan = u.scan
      ∧ t.scorer = u.scorer ∧ t.categories = u.categories ∧ t.store = u.store ∧ t.date = u.date
      ∧ t.resetActive = u.resetActive ∧ t.freeCount = u.freeCount ∧ t.pending = u.pending
      ∧ t.reports.reserved = u.reports.reserved ∧ t.reports.batch = u.reports.batch
      ∧ t.reports.batchLevel = u.reports.batchLevel ∧ t.reports.mask = u.reports.mask
      ∧ t.reports.nextSerial = u.reports.nextSerial ∧ t.reports.noticeLost = u.reports.noticeLost
      ∧ t.reports.latches = u.reports.latches := by
  simp only [State.quiet, State.mk.injEq, Link.mk.injEq, Reports.mk.injEq] at h
  simp [h]

/-- The part with the outbound traffic of another. -/
def State.withTraffic (u t : State) : State :=
  { u with
    link :=
      { u.link with
        fifo := t.link.fifo, act := t.link.act, lastAct := t.link.lastAct, lastGrant := t.link.lastGrant
        sending := t.link.sending }
    reports := { u.reports with queued := t.reports.queued } }

/-- Two parts that agree but for the outbound traffic differ in the outbound traffic only. -/
theorem State.eq_withTraffic {t u : State} (h : t.quiet = u.quiet) : t = u.withTraffic t := by
  simp only [State.quiet, State.mk.injEq, Link.mk.injEq, Reports.mk.injEq] at h
  obtain ⟨⟨a, b, c, d, e, rl⟩, i, ⟨qa, qb, qc, qd, qe, qf, qg, qh⟩, ls, sc, sr, ca, st, da, ra, fc, pe⟩ := t
  simp only [State.withTraffic]
  simp_all

@[simp] theorem State.withTraffic_quiet (u t : State) : (u.withTraffic t).quiet = u.quiet := rfl

theorem Effect.refl {s : State} (hf : s.FramesFiled) : Effect s s s [] noActs :=
  ⟨rfl, (List.append_nil _).symm, fun _ => (List.append_nil _).symm, rfl, hf, by simp, fun _ => by simp⟩

/-- One operation after another; what the second does is known up to the traffic. -/
theorem Effect.trans {s t u v w : State} {r r' : List OutFrame} {a a' : Lane → List OutFrame} (h : Effect s t u r a)
    (h' : Effect t v w r' a') : Effect s v w (r ++ r') (bothActs a a') where
  quiet := h'.quiet
  reports := by rw [h'.reports, h.reports, List.append_assoc]
  acts l := by rw [h'.acts, h.acts, List.append_assoc]; rfl
  pass := h'.pass.trans h.pass
  filed := h'.filed
  slots := by have := h.slots; have := h'.slots; simp only [List.length_append]; omega
  places l := by have := h.places l; have := h'.places l; simp only [bothActs, List.length_append]; omega

/-- What an operation leaves, named by another part equal to it but for the traffic. -/
theorem Effect.as {s t u v : State} {r : List OutFrame} {a : Lane → List OutFrame} (h : Effect s t u r a)
    (hv : u.quiet = v.quiet) : Effect s t v r a :=
  ⟨h.quiet.trans hv, h.reports, h.acts, h.pass, h.filed, h.slots, h.places⟩

/-- A change that leaves the outbound side alone. -/
theorem Effect.inside {s t : State} (hf : s.FramesFiled) (h1 : t.link.fifo = s.link.fifo) (h2 : t.link.act = s.link.act)
    (h3 : t.link.sending = s.link.sending) (h4 : t.reports.queued = s.reports.queued) : Effect s t t [] noActs := by
  refine ⟨rfl, ?_, fun l => ?_, ?_, ⟨by rw [h2]; exact hf.act, by rw [h4]; exact hf.reports⟩, by simp [h4],
    fun l => by simp [h2, noActs]⟩
  · simp [State.reportTraffic, Link.sendingOwn, h3, h4]
  · simp [State.actTraffic, Link.sendingOwn, h2, h3, noActs]
  · simp [State.passTraffic, Link.sendingPassed, h1, h3]

/-- A lane changed (R37). -/
theorem Effect.modLane {s : State} (hf : s.FramesFiled) (l : Lane) (f : LaneS → LaneS) :
    Effect s (s.modLane l f) (s.modLane l f) [] noActs := .inside hf rfl rfl rfl rfl

/-- A change of one lane follows an operation. -/
theorem Effect.thenLane {s t u : State} {r : List OutFrame} {a : Lane → List OutFrame} (h : Effect s t u r a) (l : Lane)
    (f : LaneS → LaneS) : Effect s (t.modLane l f) (u.modLane l f) r a := by
  have h2 := h.trans (Effect.modLane h.filed l f)
  simp only [List.append_nil, bothActs_noActs_right] at h2
  exact h2.as (by rw [State.eq_withTraffic h.quiet]; rfl)

/-- Room that is left after an operation. -/
theorem Effect.slotsLeft {s t u : State} {r : List OutFrame} {a : Lane → List OutFrame} (h : Effect s t u r a) {n k : Nat}
    (hs : s.Slots n) (hu : u.reports.reserved = s.reports.reserved) (hk : k + r.length ≤ n) : t.Slots k := by
  have h1 := h.slots
  have h2 : t.reports.reserved = u.reports.reserved := by rw [State.eq_withTraffic h.quiet]; rfl
  unfold State.Slots at *
  omega

/-- Places that are left after an operation. -/
theorem Effect.placesLeft {s t u : State} {r : List OutFrame} {a : Lane → List OutFrame} (h : Effect s t u r a) {l : Lane}
    {n k : Nat} (hs : s.Places l n) (hk : k + (a l).length ≤ n) : t.Places l k := by
  have h1 := h.places l
  unfold State.Places at *
  omega

/-- An operation that gives a next state is what a statement says of its step. -/
theorem Effect.gives {i : Instr} {s t u : State} {r : List OutFrame} {a : Lane → List OutFrame} (h : Effect s t u r a)
    (he : exec i s = .next t) : Gives i s u r a := ⟨t, he, h.quiet, h.reports, h.acts, h.pass⟩

/-! ### The shared operations -/

/-- The arbiter (R12, R13). -/
theorem arbitrate_effect {s : State} (hf : s.FramesFiled) : Effect s s.arbitrate s [] noActs := by
  obtain ⟨⟨h1, h2, h3⟩, h4⟩ := State.arbitrate_traffic hf
  refine ⟨State.arbitrate_quiet s, by simp [h1], fun l => by simp [h2, noActs], h3, h4, State.arbitrate_queued_le s |>.trans
    (by simp), fun l => ?_⟩
  rcases s.arbitrate_cases with h | ⟨_, ⟨m, h⟩ | h | h⟩ <;> rw [h]
  · simp
  · unfold State.grantAct
    split
    · simp
    · rename_i f fs hm
      by_cases hl : l = m
      · subst hl; simp [hm]; omega
      · simp [PerLane.get_set_ne _ _ hl]
  · unfold State.grantPass; split <;> simp
  · unfold State.grantReport; split <;> simp

/-- A report frame that becomes queued (R23). -/
theorem queueReport_effect {s : State} (hf : s.FramesFiled) {f : OutFrame} (h : f.isReport = true) :
    Effect s (s.queueReport f) s [f] noActs := by
  obtain ⟨h1, h2, h3, h4, h5⟩ := State.queueReport_spec hf h
  refine ⟨h1, h2, fun l => by simp [h3, noActs], h4, h5, State.queueReport_queued_le s f, fun l => ?_⟩
  have hg : State.FramesFiled { s with reports := { s.reports with queued := s.reports.queued ++ [f] } } :=
    ⟨hf.act, fun g hg => by
      rcases List.mem_append.1 hg with h1 | h1
      · exact hf.reports g h1
      · simp at h1; exact h1 ▸ h⟩
  exact (arbitrate_effect hg).places l

/-- An ACT frame that joins its lane's queue (R11). -/
theorem joinAct_effect {s : State} (hf : s.FramesFiled) (l : Lane) (m : ActMsg) :
    Effect s (s.joinAct l m) s [] (actsFor l [s.actFrame l m]) := by
  obtain ⟨h1, h2, h3, h4, h5⟩ := State.joinAct_spec hf l m
  have hl : (s.actFrame l m).forLane l = true := by simp [State.actFrame, OutFrame.forLane]
  have hg : State.FramesFiled
      { s with link := { s.link with act := s.link.act.set l (s.link.act.get l ++ [s.actFrame l m]) } } :=
    ⟨fun k g hg => by
      by_cases hk : k = l
      · subst hk
        rw [PerLane.get_set] at hg
        rcases List.mem_append.1 hg with h1 | h1
        · exact hf.act k g h1
        · simp at h1; exact h1 ▸ hl
      · rw [PerLane.get_set_ne _ _ hk] at hg; exact hf.act k g hg, hf.reports⟩
  have he := arbitrate_effect hg
  refine ⟨h1, by simp [h2], fun k => by simp [h3, actsFor], h4, h5, ?_, fun k => ?_⟩
  · have := he.slots
    exact this.trans (by simp)
  · have := he.places k
    refine this.trans ?_
    by_cases hk : k = l
    · subst hk; simp [noActs, actsFor]
    · simp [noActs, actsFor, hk, PerLane.get_set_ne _ _ hk]

/-- A notice of a class that finds a free slot (R24). -/
theorem notice_effect {s : State} (hf : s.FramesFiled) (hs : s.Slots 1) (k : NoticeClass) (m : NoticeMsg) :
    Effect s (s.notice k m) (s.announced k) (s.announcement k m) noActs := by
  have hfree : s.slotFree = true := by
    simp only [State.slotFree, decide_eq_true_eq]; unfold State.Slots at hs; omega
  unfold State.notice State.announced State.announcement
  split
  · simp only [State.postNotice, hfree, if_true]
    have h := queueReport_effect
      (s := { s with reports := { s.reports with nextSerial := s.reports.nextSerial + 1 } })
      (f := { dest := s.link.controller, src := s.link.station, body := .notice s.reports.nextSerial m }) ⟨hf.act, hf.reports⟩ rfl
    exact ⟨h.quiet, h.reports, h.acts, h.pass, h.filed, h.slots, h.places⟩
  · exact .refl hf

/-- The open batch closed into a free slot (R26). -/
theorem closeBatch_effect {s : State} (hf : s.FramesFiled) (hs : s.Slots 1) :
    Effect s s.closeBatch s.batchTaken s.batchSent noActs := by
  unfold State.closeBatch State.batchTaken State.batchSent
  split
  · rename_i h
    simp only [h, if_true]
    exact .refl hf
  · rename_i r rs h
    have hne : s.reports.batch ≠ [] := by simp [h]
    simp only [if_neg hne]
    have he := notice_effect (s := { s with reports := { s.reports with batch := [] } }) ⟨hf.act, hf.reports⟩ hs .piece
      (.piece (r :: rs))
    refine ⟨he.quiet.trans ?_, ?_, he.acts, he.pass, he.filed, ?_, he.places⟩
    · unfold State.announced
      have e1 : State.classOn { s with reports := { s.reports with batch := [] } } .piece = s.classOn .piece := rfl
      rw [e1]
      split <;> rfl
    · rw [he.reports, ← h]; rfl
    · refine he.slots.trans ?_
      rw [← h]; exact Nat.le_refl _

/-- A latch set (R29). -/
theorem setLatch_effect {s : State} (hf : s.FramesFiled) (x : Latch) : Effect s (s.setLatch x) (s.setLatch x) [] noActs :=
  .inside hf rfl rfl rfl rfl

/-- A notice after an operation. -/
theorem Effect.thenNotice {s t u : State} {r : List OutFrame} {a : Lane → List OutFrame} (h : Effect s t u r a) (hs : t.Slots 1)
    (k : NoticeClass) (m : NoticeMsg) : Effect s (t.notice k m) (u.announced k) (r ++ u.announcement k m) a := by
  have h2 := h.trans (notice_effect h.filed hs k m)
  rw [bothActs_noActs_right] at h2
  have e := State.eq_withTraffic h.quiet
  have e1 : t.announcement k m = u.announcement k m := by rw [e]; rfl
  rw [e1] at h2
  refine h2.as ?_
  rw [e]
  unfold State.announced
  have e2 : (u.withTraffic t).classOn k = u.classOn k := rfl
  rw [e2]
  split <;> rfl

/-- The batch closed after an operation. -/
theorem Effect.thenBatch {s t u : State} {r : List OutFrame} {a : Lane → List OutFrame} (h : Effect s t u r a) (hs : t.Slots 1) :
    Effect s t.closeBatch u.batchTaken (r ++ u.batchSent) a := by
  have h2 := h.trans (closeBatch_effect h.filed hs)
  rw [bothActs_noActs_right] at h2
  have e := State.eq_withTraffic h.quiet
  have e1 : t.batchSent = u.batchSent := by rw [e]; rfl
  rw [e1] at h2
  refine h2.as ?_
  rw [e]
  unfold State.batchTaken State.announced
  have e2 : (u.withTraffic t).classOn .piece = u.classOn .piece := rfl
  have e3 : (u.withTraffic t).reports.batch = u.reports.batch := rfl
  rw [e2, e3]
  split
  · rfl
  · split <;> rfl

/-- An ACT frame after an operation. -/
theorem Effect.thenAct {s t u : State} {r : List OutFrame} {a : Lane → List OutFrame} (h : Effect s t u r a) (l : Lane)
    (m : ActMsg) : Effect s (t.joinAct l m) u r (bothActs a (actsFor l [u.actFrame l m])) := by
  have h2 := h.trans (joinAct_effect h.filed l m)
  rw [List.append_nil] at h2
  have e := State.eq_withTraffic h.quiet
  have e1 : t.actFrame l m = u.actFrame l m := by rw [e]; rfl
  rw [e1] at h2
  exact h2.as h.quiet

/-- Latches set after an operation. -/
theorem Effect.thenLatches {s t u : State} {r : List OutFrame} {a : Lane → List OutFrame} (h : Effect s t u r a)
    (b : BitVec 11) : Effect s (t.withLatches b) (u.withLatches b) r a := by
  have h2 := h.trans (Effect.inside (t := t.withLatches b) h.filed rfl rfl rfl rfl)
  simp only [List.append_nil, bothActs_noActs_right] at h2
  exact h2.as (by rw [State.eq_withTraffic h.quiet]; rfl)

/-- The response of a command after an operation (R21). -/
theorem Effect.thenComplete {s t u : State} {r : List OutFrame} {a : Lane → List OutFrame} (h : Effect s t u r a) (c : Cmd)
    (rc : ResponseCode) (d : List Byte) : Effect s (t.complete c rc d) u.answered (r ++ [u.response c rc d]) a := by
  have h1 := Effect.inside (t := t.answered) h.filed rfl rfl rfl rfl
  have h2 := h1.trans (queueReport_effect h1.filed (f := t.response c rc d) rfl)
  have e : t.complete c rc d = t.answered.queueReport (t.response c rc d) := rfl
  rw [← e] at h2
  have h3 := h.trans h2
  simp only [List.nil_append, bothActs_noActs_right] at h3
  have ee := State.eq_withTraffic h.quiet
  have e1 : t.response c rc d = u.response c rc d := by rw [ee]; rfl
  rw [e1] at h3
  exact h3.as (by rw [ee]; rfl)

end Sys2Proof.Machine
end

