-- ==== Sys2Proof/Laws/Lanes.lean ====
section
/-! SUPPORT. What the shared operations on a lane do: scan slots, feed rate, lane states, jams and
retirements. -/

namespace Sys2Proof.Machine

/-! ### Operations that do not see the outbound traffic -/

/-- An operation that neither reads nor changes the outbound traffic. -/
structure Inside (f : State → State) : Prop where
  blind : ∀ u t, f (u.withTraffic t) = (f u).withTraffic t
  keeps : ∀ u, (f u).withTraffic u = f u

/-- Such an operation after another. -/
theorem Inside.comp {f g : State → State} (hf : Inside f) (hg : Inside g) : Inside fun s => g (f s) where
  blind u t := by rw [hf.blind, hg.blind]
  keeps u := by
    have h1 := hg.keeps (f u)
    rw [← hf.keeps u] at h1 ⊢
    rw [hg.blind]
    rfl

theorem Inside.id : Inside fun s => s := ⟨fun _ _ => rfl, fun _ => rfl⟩

theorem Inside.modLane (l : Lane) (f : LaneS → LaneS) : Inside fun s => s.modLane l f := ⟨fun _ _ => rfl, fun _ => rfl⟩

theorem Inside.modPiece (l : Lane) (tag : Tag) (f : Piece → Piece) : Inside fun s => s.modPiece l tag f :=
  ⟨fun _ _ => rfl, fun _ => rfl⟩

/-- What an operation that does not see the traffic leaves of it. -/
theorem Inside.traffic {f : State → State} (hf : Inside f) (u : State) :
    (f u).link.fifo = u.link.fifo ∧ (f u).link.act = u.link.act ∧ (f u).link.sending = u.link.sending
      ∧ (f u).reports.queued = u.reports.queued := by
  rw [← hf.keeps u]; exact ⟨rfl, rfl, rfl, rfl⟩

/-- An operation that does not see the traffic, as an effect. -/
theorem Inside.effect {f : State → State} (hf : Inside f) {s : State} (hs : s.FramesFiled) : Effect s (f s) (f s) [] noActs :=
  have h := hf.traffic s
  .inside hs h.1 h.2.1 h.2.2.1 h.2.2.2

/-- An operation that does not see the traffic, after another. -/
theorem Effect.thenInside {s t u : State} {r : List OutFrame} {a : Lane → List OutFrame} (h : Effect s t u r a)
    {f : State → State} (hf : Inside f) : Effect s (f t) (f u) r a := by
  have h2 := h.trans (hf.effect h.filed)
  simp only [List.append_nil, bothActs_noActs_right] at h2
  refine h2.as ?_
  have e := State.eq_withTraffic h.quiet
  have e1 : f t = (f u).withTraffic t := by rw [← hf.blind]; exact congrArg f e
  rw [e1, State.withTraffic_quiet]

/-! ### Scan slots -/

theorem grantSlot_inside (l : Lane) (tag : Tag) : Inside fun s => s.grantSlot l tag where
  blind u t := by
    simp only [State.grantSlot]
    rw [show (u.withTraffic t).piece? l tag = u.piece? l tag from rfl]
    cases u.piece? l tag with
    | none => rfl
    | some p => dsimp only; generalize p.length = n; cases n <;> rfl
  keeps u := by
    simp only [State.grantSlot]
    cases u.piece? l tag with
    | none => rfl
    | some p => dsimp only; generalize p.length = n; cases n <;> rfl

theorem askSlot_inside (l : Lane) (tag : Tag) : Inside fun s => s.askSlot l tag where
  blind u t := by
    simp only [State.askSlot]
    rw [show (u.withTraffic t).slotsHeld = u.slotsHeld from rfl]
    split
    · exact (grantSlot_inside l tag).blind u t
    · rfl
  keeps u := by
    simp only [State.askSlot]
    split
    · exact (grantSlot_inside l tag).keeps u
    · rfl

theorem passSlotOn_inside : Inside State.passSlotOn where
  blind u t := by
    simp only [State.passSlotOn]
    rw [show (u.withTraffic t).scan = u.scan from rfl]
    split
    · rfl
    · rename_i l tag rest h
      exact (grantSlot_inside l tag).blind { u with scan := { u.scan with waitList := rest } } t
  keeps u := by
    simp only [State.passSlotOn]
    split
    · rfl
    · rename_i l tag rest h
      exact (grantSlot_inside l tag).keeps { u with scan := { u.scan with waitList := rest } }

theorem passSlotsOn_inside (n : Nat) : Inside fun s => s.passSlotsOn n := by
  induction n with
  | zero => exact Inside.id
  | succ n ih => exact passSlotOn_inside.comp ih

theorem leaveWaitList_inside (l : Lane) (tag : Tag) : Inside fun s => s.leaveWaitList l tag := ⟨fun _ _ => rfl, fun _ => rfl⟩

theorem dropJob_inside (l : Lane) (tag : Tag) : Inside fun s => s.dropJob l tag where
  blind u t := (passSlotsOn_inside _).blind
    { u with scorer := { u.scorer with queues := u.scorer.queues.set l ((u.scorer.queues.get l).filter fun j => !(j.tag == tag)) } } t
  keeps u := (passSlotsOn_inside _).keeps
    { u with scorer := { u.scorer with queues := u.scorer.queues.set l ((u.scorer.queues.get l).filter fun j => !(j.tag == tag)) } }

theorem failScan_inside (l : Lane) (tag : Tag) (r : FailReason) : Inside fun s => s.failScan l tag r :=
  Inside.modPiece _ _ _

theorem withdrawLane_inside (l : Lane) : Inside fun s => s.withdrawLane l where
  blind u t := (passSlotsOn_inside _).blind
    { u.modLane l fun x => { x with list := x.list.map jamScan } with
      scan := { u.scan with waitList := u.scan.waitList.filter fun e => !(e.1 == l) }
      scorer := { u.scorer with queues := u.scorer.queues.set l [] } }
    t
  keeps u := (passSlotsOn_inside _).keeps
    { u.modLane l fun x => { x with list := x.list.map jamScan } with
      scan := { u.scan with waitList := u.scan.waitList.filter fun e => !(e.1 == l) }
      scorer := { u.scorer with queues := u.scorer.queues.set l [] } }

theorem abandonScan_inside (l : Lane) (tag : Tag) : Inside fun s => s.abandonScan l tag where
  blind u t := by
    simp only [State.abandonScan]
    rw [show (u.withTraffic t).piece? l tag = u.piece? l tag from rfl]
    split
    · rfl
    · rfl
    · rfl
    · exact ((failScan_inside l tag _).comp (dropJob_inside l tag)).blind u t
    · rfl
    · rfl
    · rfl
  keeps u := by
    simp only [State.abandonScan]
    split
    · rfl
    · rfl
    · rfl
    · exact ((failScan_inside l tag _).comp (dropJob_inside l tag)).keeps u
    · rfl
    · rfl
    · rfl

theorem settleScan_inside (l : Lane) (tag : Tag) : Inside fun s => s.settleScan l tag where
  blind u t := by
    simp only [State.settleScan]
    rw [show (u.withTraffic t).piece? l tag = u.piece? l tag from rfl]
    split
    · rfl
    · rfl
    · exact ((failScan_inside l tag _).comp (dropJob_inside l tag)).blind u t
    · rfl
  keeps u := by
    simp only [State.settleScan]
    split
    · rfl
    · rfl
    · exact ((failScan_inside l tag _).comp (dropJob_inside l tag)).keeps u
    · rfl

/-! ### Feed rate and lane states -/

/-- A lane's FEED frame takes one place at most. -/
theorem State.feedActs_length (s : State) (l : Lane) : (s.feedActs l).length ≤ 1 := by
  unfold State.feedActs; split <;> simp

/-- The feed rate worked out afresh where the ACT queue has a place (R159, R160). -/
theorem Effect.thenRate {s t u : State} {r : List OutFrame} {a : Lane → List OutFrame} (h : Effect s t u r a) (l : Lane)
    (hp : t.Places l 1) : Effect s (t.updateRate l) (u.modLane l LaneS.rated) r (bothActs a (actsFor l (u.feedActs l))) := by
  have e := State.eq_withTraffic h.quiet
  have e1 : t.lane l = u.lane l := by rw [e]; rfl
  unfold State.updateRate State.feedActs
  simp only [e1]
  split
  · rename_i hr
    simp only [actsFor_nil, bothActs_noActs_right]
    refine h.as ?_
    have : LaneS.rated (u.lane l) = u.lane l := by unfold LaneS.rated; rw [hr]
    have h2 : u.modLane l LaneS.rated = u := by
      unfold State.modLane
      rw [show u.lanes.get l = u.lane l from rfl, this]
      simp only [State.lane, PerLane.set_get]
    rw [h2]
  · have h2 := (h.thenLane l fun x => { x with feedRate := (u.lane l).wantedRate }).thenAct l (.feed (u.lane l).wantedRate)
    have hroom : (t.link.act.get l).length < Config.actDepth := by unfold State.Places at hp; omega
    have e3 : (t.modLane l fun x => { x with feedRate := (u.lane l).wantedRate }).placeAct l (.feed (u.lane l).wantedRate)
        = (t.modLane l fun x => { x with feedRate := (u.lane l).wantedRate }).joinAct l (.feed (u.lane l).wantedRate) := by
      unfold State.placeAct
      rw [if_pos (by exact hroom)]
    rw [e3]
    have e4 : (u.modLane l fun x => { x with feedRate := (u.lane l).wantedRate }) = u.modLane l LaneS.rated := rfl
    rw [e4] at h2
    exact h2

/-- The reservations after an effect are those of the part it names. -/
theorem Effect.reserved {s t u : State} {r : List OutFrame} {a : Lane → List OutFrame} (h : Effect s t u r a) :
    t.reports.reserved = u.reports.reserved := by rw [State.eq_withTraffic h.quiet]; rfl

/-- A lane takes a state other than JAMMED (R45). -/
theorem Effect.thenState {s t u : State} {r : List OutFrame} {a : Lane → List OutFrame} (h : Effect s t u r a) (l : Lane)
    (st : LaneState) (hs : t.Slots 1) : Effect s (t.laneTo l st) (u.entered l st) (r ++ u.laneNotice l st) a := by
  have e := State.eq_withTraffic h.quiet
  have h1 := (h.thenLane l fun x => { x with state := st }).thenLatches 0x001#11
  have h2 := h1.thenNotice (k := .lane) (m := .lane l (u.lane l).state st (u.lane l).list.length) hs
  have e1 : t.lane l = u.lane l := by rw [e]; rfl
  have e2 : t.laneTo l st = State.notice (State.withLatches (t.modLane l fun x => { x with state := st }) 0x001#11) .lane
      (.lane l (u.lane l).state st (u.lane l).list.length) := by
    unfold State.laneTo
    rw [e1]
    simp only [State.setLatch_lane, State.modLane_lane, e1]
    rfl
  rw [e2]
  exact h2

/-- A drained lane stops (R48). -/
theorem Effect.thenDrain {s t u : State} {r : List OutFrame} {a : Lane → List OutFrame} (h : Effect s t u r a) (l : Lane)
    (hs : t.Slots 1) : Effect s (t.drain l) (u.settled l) (r ++ u.settledNotice l) a := by
  have e := State.eq_withTraffic h.quiet
  have e1 : t.lane l = u.lane l := by rw [e]; rfl
  unfold State.drain State.settled State.settledNotice LaneS.drained
  rw [e1]
  split
  · have h1 := (h.thenLane l fun x => { x with eye := .idle, window := none, forwardMark := none }).thenState l .stopped hs
    have e2 : State.laneNotice (u.modLane l fun x => { x with eye := .idle, window := none, forwardMark := none }) l .stopped
        = u.laneNotice l .stopped := by
      unfold State.laneNotice
      rw [State.modLane_lane]
      rfl
    rw [e2] at h1
    exact h1
  · simpa using h

/-! ### A jam (R58) -/

/-- Slots passed on touch neither the link nor the reports (R72). -/
theorem passSlotsOn_keeps (n : Nat) (v : State) : (v.passSlotsOn n).reports = v.reports ∧ (v.passSlotsOn n).link = v.link := by
  induction n generalizing v with
  | zero => exact ⟨rfl, rfl⟩
  | succ n ih =>
    rw [State.passSlotsOn]
    have : v.passSlotOn.reports = v.reports ∧ v.passSlotOn.link = v.link := by
      unfold State.passSlotOn
      split
      · exact ⟨rfl, rfl⟩
      · unfold State.grantSlot; split <;> [exact ⟨rfl, rfl⟩; (split <;> exact ⟨rfl, rfl⟩)]
    exact ⟨(ih _).1.trans this.1, (ih _).2.trans this.2⟩

/-- A withdrawal touches neither the link nor the reports (R75). -/
theorem withdrawLane_keeps (u : State) (l : Lane) : (u.withdrawLane l).reports = u.reports ∧ (u.withdrawLane l).link = u.link := by
  unfold State.withdrawLane
  exact ⟨(passSlotsOn_keeps _ _).1, (passSlotsOn_keeps _ _).2⟩

/-- A closed batch leaves the reservations (R26). -/
theorem batchTaken_reserved (u : State) : u.batchTaken.reports.reserved = u.reports.reserved := by
  unfold State.batchTaken State.announced; split <;> [rfl; (split <;> rfl)]

/-- A closed batch takes one slot at most (R26). -/
theorem batchSent_length (u : State) : u.batchSent.length ≤ 1 := by
  unfold State.batchSent State.announcement; split <;> [simp; (split <;> simp)]

/-- A notice takes one slot at most (R24). -/
theorem announcement_length (u : State) (k : NoticeClass) (m : NoticeMsg) : (u.announcement k m).length ≤ 1 := by
  unfold State.announcement; split <;> simp

/-- A notice leaves the reservations (R24). -/
theorem announced_reserved (u : State) (k : NoticeClass) : (u.announced k).reports.reserved = u.reports.reserved := by
  unfold State.announced; split <;> rfl

/-- The frames of a jam depend on the link and the reports alone. -/
theorem jamFrames_eq {u v : State} (h1 : u.reports = v.reports) (h2 : u.link = v.link) :
    u.batchSent = v.batchSent ∧ ∀ k m, u.batchTaken.announcement k m = v.batchTaken.announcement k m := by
  unfold State.batchSent State.batchTaken State.announced State.announcement State.classOn
  rw [h1, h2]
  refine ⟨rfl, fun k m => ?_⟩
  split <;> [simp [h1, h2]; (split <;> simp [h1, h2])]

/-- What a jam does (R58, R75, R128, R160). -/
theorem jam_spec {s : State} (hf : s.FramesFiled) (l : Lane) (cause : JamCause) (fromFeed : Bool) (hs : s.Slots 2) :
    (s.jam l cause fromFeed).quiet = (s.jammed l).quiet
      ∧ (s.jam l cause fromFeed).reportTraffic = s.reportTraffic ++ s.jamReports l cause
      ∧ (s.jam l cause fromFeed).actTraffic l = s.link.sendingOwn.filter (OutFrame.forLane l) ++ s.jamActs l fromFeed
      ∧ (s.jam l cause fromFeed).actTraffic (otherLane l) = s.actTraffic (otherLane l)
      ∧ (s.jam l cause fromFeed).passTraffic = s.passTraffic ∧ (s.jam l cause fromFeed).FramesFiled := by
  have hfe : (s.emptyAct l).FramesFiled := by
    refine ⟨fun m f hm => ?_, hf.reports⟩
    by_cases h : m = l
    · subst h; simp [State.emptyAct] at hm
    · simp only [State.emptyAct, PerLane.get_set_ne _ _ h] at hm; exact hf.act m f hm
  have h1 := ((Effect.refl hfe).thenLane l LaneS.jam).thenAct l .safe
  have hu : ∀ m, ((s.emptyAct l).modLane l LaneS.jam).actFrame l m = s.actFrame l m := fun _ => rfl
  rw [bothActs_noActs_left, hu] at h1
  obtain ⟨t, ht, h2⟩ : ∃ t, t = (if (s.lane l).feedRate != .hold || fromFeed then
        (((s.emptyAct l).modLane l LaneS.jam).joinAct l .safe).joinAct l (.feed .hold)
      else ((s.emptyAct l).modLane l LaneS.jam).joinAct l .safe)
      ∧ Effect (s.emptyAct l) t ((s.emptyAct l).modLane l LaneS.jam) [] (actsFor l (s.jamActs l fromFeed)) := by
    refine ⟨_, rfl, ?_⟩
    unfold State.jamActs
    split
    · rename_i h
      have h3 := h1.thenAct l (.feed .hold)
      rw [bothActs_actsFor, hu] at h3
      rw [if_pos (by simpa using h)]
      exact h3
    · rename_i h
      rw [if_neg (by simpa using h)]
      exact h1
  have h3 : Effect (s.emptyAct l) _ (s.modLane l LaneS.jammed) [] _ :=
    (h2.thenLane l fun x => { x with heads := ⟨x.heads.l.emptied, x.heads.t.emptied⟩ }).as (by cases l <;> rfl)
  have h4 := h3.thenInside (withdrawLane_inside l)
  obtain ⟨k1, k2⟩ := withdrawLane_keeps (s.modLane l LaneS.jammed) l
  have hs0 : (s.emptyAct l).Slots 2 := hs
  have s4 := h4.slotsLeft (k := 1) hs0 (by rw [k1]; rfl) (by simp)
  have h5 := h4.thenBatch s4
  have s5 := h5.slotsLeft (k := 1) hs0 (by rw [batchTaken_reserved, k1]; rfl) (by
    have := batchSent_length ((s.modLane l LaneS.jammed).withdrawLane l); simp only [List.nil_append]; omega)
  have h6 := h5.thenNotice s5 .jam (.jam l cause (s.lane l).state (s.lane l).belt (s.lane l).list.length)
  have h7 := (h6.thenLatches (BitVec.ofNat 11 (2 ^ Latch.jam.bit))).thenLatches (BitVec.ofNat 11 (2 ^ Latch.laneChange.bit))
  have he : s.jam l cause fromFeed
      = (((((t.modLane l fun x => { x with heads := ⟨x.heads.l.emptied, x.heads.t.emptied⟩ }).withdrawLane l).closeBatch.notice
        .jam (.jam l cause (s.lane l).state (s.lane l).belt (s.lane l).list.length)).withLatches
        (BitVec.ofNat 11 (2 ^ Latch.jam.bit))).withLatches (BitVec.ofNat 11 (2 ^ Latch.laneChange.bit))) := by
    subst ht; rfl
  rw [← he] at h7
  obtain ⟨e1, e2⟩ := jamFrames_eq (u := (s.modLane l LaneS.jammed).withdrawLane l) (v := s) k1 k2
  refine ⟨h7.quiet.trans ?_, ?_, ?_, ?_, h7.pass, h7.filed⟩
  · simp only [State.jammed, State.withLatches, State.quiet, BitVec.or_assoc]
    rfl
  · rw [h7.reports, e1, e2]
    rfl
  · rw [h7.acts]
    simp [actsFor, State.actTraffic, State.emptyAct, Link.sendingOwn]
  · rw [h7.acts]
    cases l <;> simp [actsFor, State.actTraffic, State.emptyAct, otherLane, PerLane.get, PerLane.set, Link.sendingOwn]

/-! ### Retirements -/

theorem Disposition.rejected_iff (d : Disposition) : d.rejected = decide (d ∈ rejects) := by cases d <;> rfl

theorem Disposition.revenue_iff (d : Disposition) : d.revenue = decide (d ∈ revenues) := by cases d <;> rfl

/-- A record's corner and category read from its finding (R96). -/
theorem Piece.mark_eq (q : Piece) : q.mark = (q.corner?, q.category?) := by
  unfold Piece.mark Piece.corner? Piece.category?
  rcases q.finding with _ | ⟨r, _, _, _, _⟩
  · rfl
  · cases r <;> rfl

theorem Piece.reported_eq (q : Piece) (l : Lane) (d : Disposition) (h : q.disposition = some d) :
    q.report l = q.reported l d := by
  simp [Piece.report, Piece.reported, Piece.mark_eq, h, Disposition.revenue_iff]

theorem Head.without_eq (tag : Tag) (h : Head) : h.without tag = h.released tag := by
  unfold Head.without Head.released
  congr 1
  · congr 1; funext k; by_cases hk : k.tag = tag <;> simp [hk]

/-- The pocket's part of an ordinary retirement (R138). -/
theorem Pocket.retire_ordinary (q : Piece) (k : Pocket) : k.retire .ordinary q = k.gained q := by
  unfold Pocket.retire Pocket.gained Pocket.settleSweep
  dsimp only
  by_cases h : k.state = .sweepWait ∧ k.inbound - 1 = 0
  · rw [if_pos h, if_pos ⟨h.1, by omega⟩]
  · rw [if_neg h, if_neg (fun hh => h ⟨hh.1, by omega⟩)]

/-- The batch with one more record (R26). -/
def State.withRecord (s : State) (x : PieceReport) : State :=
  { s with reports := { s.reports with batch := s.reports.batch ++ [x] } }

theorem State.appended_eq (s : State) (x : PieceReport) :
    s.appended x = if s.classOn .piece then
        (if s.reports.batchLevel ≤ s.reports.batch.length + 1 then (s.withRecord x).batchTaken else s.withRecord x) else s := rfl

theorem State.appendSent_eq (s : State) (x : PieceReport) :
    s.appendSent x = if s.classOn .piece ∧ s.reports.batchLevel ≤ s.reports.batch.length + 1 then (s.withRecord x).batchSent
      else [] := rfl

theorem State.appendReport_eq (s : State) (x : PieceReport) :
    s.appendReport x = if s.classOn .piece then
        (if s.reports.batchLevel ≤ s.reports.batch.length + 1 then (s.withRecord x).closeBatch else s.withRecord x) else s := by
  simp [State.appendReport, State.pieceReporting, State.withRecord]

/-- A record appended to the batch (R26). -/
theorem Effect.thenAppend {s t u : State} {r : List OutFrame} {a : Lane → List OutFrame} (h : Effect s t u r a)
    (x : PieceReport) (hs : t.Slots 1) : Effect s (t.appendReport x) (u.appended x) (r ++ u.appendSent x) a := by
  have e := State.eq_withTraffic h.quiet
  have e1 : t.classOn .piece = u.classOn .piece := by rw [e]; rfl
  have e2 : t.reports.batch = u.reports.batch := by rw [e]; rfl
  have e3 : t.reports.batchLevel = u.reports.batchLevel := by rw [e]; rfl
  have h1 := h.thenInside (f := fun s => s.withRecord x) ⟨fun _ _ => rfl, fun _ => rfl⟩
  rw [State.appendReport_eq, State.appended_eq, State.appendSent_eq, e1, e2, e3]
  by_cases hp : u.classOn .piece
  · by_cases hb : u.reports.batchLevel ≤ u.reports.batch.length + 1
    · simp only [hp, hb, if_true, and_self]
      exact h1.thenBatch hs
    · simp only [hp, hb, if_true, if_false, and_false]
      simpa using h1
  · simpa [hp] using h

theorem State.modLane_modLane (s : State) (l : Lane) (f g : LaneS → LaneS) :
    (s.modLane l f).modLane l g = s.modLane l fun x => g (f x) := by
  unfold State.modLane
  simp

theorem State.modLane_id (s : State) (l : Lane) (f : LaneS → LaneS) (h : f (s.lane l) = s.lane l) : s.modLane l f = s := by
  unfold State.modLane
  rw [show s.lanes.get l = s.lane l from rfl, h]
  simp only [State.lane, PerLane.set_get]

/-- A category's gain and a lane's change do not meet. -/
theorem State.gainCategory_modLane (s : State) (p : Piece) (d : Disposition) (l : Lane) (f : LaneS → LaneS) :
    (s.gainCategory p d).modLane l f = (s.modLane l f).gainCategory p d := by
  unfold State.gainCategory
  split
  · split <;> rfl
  · rfl

/-- The Count Bank's part of an ordinary retirement (R146, R148). -/
theorem State.countRetired_ordinary (s : State) (l : Lane) (p : Piece) (d : Disposition) (hd : p.disposition = some d) :
    s.countRetired l .ordinary p = (s.count l (LaneCounters.disposed d)).gainCategory p d := by
  unfold State.countRetired State.gainCategory Piece.category?
  simp only [hd, Disposition.revenue_iff, beq_self_eq_true, Bool.true_and]
  rcases hf : p.finding with _ | ⟨r, v, _, _, _⟩
  · simp
  · rcases r with _ | _ | _ | ⟨_, _, _, _, _, _, c⟩
    · simp [FindingResult.hit?]
    · simp [FindingResult.hit?]
    · simp [FindingResult.hit?]
    · cases c with
      | none => simp [FindingResult.hit?]
      | some c =>
        by_cases hr : d ∈ revenues
        · simp [FindingResult.hit?, hr, CategoryRecord.gain, satInc, Config.max32]
        · simp [FindingResult.hit?, hr]

/-- The Pocket Manager's part of an ordinary retirement (R138). -/
theorem State.pocketRetired_ordinary (s : State) (l : Lane) (p : Piece) :
    s.pocketRetired l .ordinary p = s.modLane l fun x =>
      { x with
        pockets :=
          match p.pocket with
          | none => x.pockets
          | some k => x.pockets.set k.val ((x.pockets.get k).gained p) k.isLt } := by
  unfold State.pocketRetired
  cases p.pocket with
  | none => exact (State.modLane_id s l _ rfl).symm
  | some k => simp only [State.modPocket, Pocket.retire_ordinary]

/-- The Transport Monitor's part of an ordinary retirement (R155). -/
theorem State.windowRetired_ordinary (s : State) (l : Lane) (p : Piece) (d : Disposition) (hd : p.disposition = some d) :
    s.windowRetired l .ordinary p = s.modLane l fun x =>
      { x with window := x.window.map fun w => if d ∈ rejects then { w with reject := min (w.reject + 1) 65535 } else w } := by
  unfold State.windowRetired State.countWindow
  simp only [hd, Disposition.rejected_iff, decide_eq_true_eq]
  split
  · rename_i h; simp [satInc, Config.max16]
  · rename_i h
    refine (State.modLane_id s l _ ?_).symm
    simp

/-- A lane that drops a record (R60, R123). -/
theorem LaneS.drop_eq (tag : Tag) (x : LaneS) :
    x.drop tag = { x with
      list := x.list.filter fun q => q.tag ≠ tag
      heads := ⟨x.heads.l.released tag, x.heads.t.released tag⟩ } := by
  unfold LaneS.drop
  rw [Head.without_eq, Head.without_eq]
  congr 1
  congr 1; funext k; by_cases hk : k.tag = tag <;> simp [hk]

/-- What an ordinary retirement of a record with a disposition hands over (R60). -/
theorem retire_ordinary_eq (s : State) (l : Lane) (p : Piece) (d : Disposition) (hd : p.disposition = some d) :
    s.retire l .ordinary p
      = (((s.modLane l (LaneS.afterRetirement p d)).gainCategory p d)).appendReport (p.reported l d) := by
  have key : (((s.modLane l (LaneS.drop p.tag)).countRetired l .ordinary p).pocketRetired l .ordinary p).windowRetired l .ordinary p
      = (s.modLane l (LaneS.afterRetirement p d)).gainCategory p d := by
    rw [State.countRetired_ordinary _ _ _ _ hd, State.pocketRetired_ordinary, State.windowRetired_ordinary _ _ _ _ hd,
      State.gainCategory_modLane, State.gainCategory_modLane, State.count_eq, State.modLane_modLane, State.modLane_modLane,
      State.modLane_modLane]
    congr 2
    funext x
    simp only [LaneS.drop_eq, LaneS.count, LaneCounters.disposed, LaneS.afterRetirement, satInc, Config.max32] <;>
      cases p.pocket <;> rfl
  unfold State.retire
  simp only [retired]
  rw [key]
  simp only [State.reportRetired]
  rw [Piece.reported_eq p l d hd]

/-- An ordinary retirement after an operation (R60). -/
theorem Effect.thenRetire {s t u : State} {r : List OutFrame} {a : Lane → List OutFrame} (h : Effect s t u r a) (l : Lane)
    (p : Piece) (d : Disposition) (hd : p.disposition = some d) (hs : t.Slots 1) :
    Effect s (t.retire l .ordinary p) (u.handedOff l p d)
      (r ++ ((u.modLane l (LaneS.afterRetirement p d)).gainCategory p d).appendSent (p.reported l d)) a := by
  rw [retire_ordinary_eq _ _ _ _ hd]
  have hi : Inside fun s => s.gainCategory p d := by
    constructor
    · intro u t
      simp only [State.gainCategory]
      split
      · split <;> rfl
      · rfl
    · intro u
      simp only [State.gainCategory]
      split
      · split <;> rfl
      · rfl
  have hs' : State.Slots ((t.modLane l (LaneS.afterRetirement p d)).gainCategory p d) 1 := by
    have := hi.traffic (t.modLane l (LaneS.afterRetirement p d))
    unfold State.Slots
    rw [this.2.2.2]
    have hr : ((t.modLane l (LaneS.afterRetirement p d)).gainCategory p d).reports = t.reports := by
      unfold State.gainCategory
      split
      · split <;> rfl
      · rfl
    rw [hr]; exact hs
  exact ((h.thenLane l (LaneS.afterRetirement p d)).thenInside hi).thenAppend (p.reported l d) hs'

/-! ### The placing of ACT frames (R11) -/

/-- A frame joins a queue that has room. -/
theorem placeAct_room {s : State} {l : Lane} (h : (s.link.act.get l).length < 8) (m : ActMsg) :
    s.placeAct l m = s.joinAct l m := if_pos h

/-- A frame over a full queue jams a RUNNING or DRAINING lane and is discarded by another. -/
theorem placeAct_full {s : State} {l : Lane} (h : 8 ≤ (s.link.act.get l).length) (m : ActMsg) :
    s.placeAct l m
      = if (s.lane l).active then s.jam l .actOverrun (match m with | .feed _ => true | _ => false) else s := by
  unfold State.placeAct LaneS.active
  rw [if_neg (by simpa [Config.actDepth] using h)]
  cases (s.lane l).state <;> rfl

end Sys2Proof.Machine
end

