-- ==== Sys2Proof/Laws/Operands.lean ====
section
/-! SUPPORT. Operands and the byte order of wide fields read back, and what a completion gives. -/

namespace Sys2Proof.Machine

@[simp] theorem laneOf_laneNat (l : Lane) : laneOf (byte (laneNat l)) = some l := by cases l <;> rfl

@[simp] theorem headOf_headNat (h : HeadId) : headOf (byte (headNat h)) = some h := by cases h <;> rfl

@[simp] theorem tableOf_toNat (t : Table) : tableOf (byte t.toNat) = some t := by cases t <;> rfl

@[simp] theorem cornerOf_toNat (c : Corner) : cornerOf (byte c.toNat) = some c := by cases c <;> rfl

/-- A number below 256 in one byte. -/
theorem byte_toNat {n : Nat} (h : n < 256) : (byte n).toNat = n := by simp [byte]; omega

theorem beNat_two (a b : Byte) : beNat [a, b] = a.toNat * 256 + b.toNat := by simp [beNat]

theorem beNat_three (a b c : Byte) : beNat [a, b, c] = (a.toNat * 256 + b.toNat) * 256 + c.toNat := by simp [beNat]

/-- A two-byte field read back (R174). -/
theorem beNat_beBytes_two {n : Nat} (h : n < 65536) : beNat (beBytes 2 n) = n := by simp [beBytes, beNat]; omega

/-- A three-byte field read back (R174). -/
theorem beNat_beBytes_three {n : Nat} (h : n < 16777216) : beNat (beBytes 3 n) = n := by simp [beBytes, beNat]; omega

/-- What a completion with valid arguments answers (R20). -/
theorem completion_next {α : Type} {s : State} {code : Byte} {c : Cmd} {parse : List Byte → Args α}
    {act : State → Cmd → α → State} {a : α} (he : Executing s code c) (h : parse c.args = .valid a) :
    (Host.Outcome.next (s.completion code parse act) : Result) = .next (act s c a) :=
  congrArg _ (State.completion_valid act he h)

/-- A step that answers the executing command after an effect that leaves the outbound side alone. -/
theorem Completes.of_next {i : Instr} {s u : State} {c : Cmd} {rc : ResponseCode} {d : List Byte} {code : Byte}
    (he : Executing s code c) (hu : exec i s = .next (u.complete c rc d)) (h1 : u.link.fifo = s.link.fifo := by rfl)
    (h2 : u.link.act = s.link.act := by rfl) (h3 : u.link.sending = s.link.sending := by rfl)
    (h4 : u.reports.queued = s.reports.queued := by rfl) : Completes i s c u rc d := by
  have := (Effect.inside (t := u) he.filed h1 h2 h3 h4).thenComplete c rc d
  simp only [List.nil_append] at this
  exact this.gives hu

/-- A step that answers the executing command after an effect that builds notices; `u` names the part it
leaves, traffic aside. -/
theorem CompletesAfter.of_next {i : Instr} {s u v : State} {c : Cmd} {rc : ResponseCode} {d : List Byte}
    {r : List OutFrame} (hu : exec i s = .next (v.complete c rc d)) (hq : v.quiet = u.quiet)
    (hr : v.reportTraffic = s.reportTraffic ++ r) (ha : ∀ l, v.actTraffic l = s.actTraffic l)
    (hp : v.passTraffic = s.passTraffic) (hf : v.FramesFiled) : CompletesAfter i s c r u rc d := by
  obtain ⟨h1, h2, h3, h4⟩ := State.complete_spec (s := s) (u := v) c rc d hf r hr ha hp
  have e := State.eq_withTraffic hq
  refine ⟨_, hu, h1.trans ?_, h2.trans ?_, h3, h4⟩
  · rw [e]; rfl
  · rw [e]; rfl

/-- A number is read within its range as itself. -/
theorem within_eq_some {low high n m : Nat} : within low high n = some m ↔ low ≤ n ∧ n ≤ high ∧ m = n := by
  unfold within
  split <;> simp <;> omega

/-- A number below a bound is read as itself. -/
theorem below_eq_some {bound n : Nat} {k : Fin bound} : below bound n = some k ↔ n = k.val := by
  unfold below
  split
  · simp only [Option.some.injEq, Fin.ext_iff]
  · simp
    omega

/-- A switch byte is read from its number alone (log entry 6). -/
theorem switchOf_eq_some {b : Byte} {x : Bool} : switchOf b = some x ↔ b = byte (switchNat x) := by
  constructor
  · unfold switchOf
    split
    iterate 2
      · rename_i h
        rintro ⟨⟩
        exact BitVec.eq_of_toNat_eq h
    · nofun
  · rintro rfl
    cases x <;> rfl

/-- A lane is read from its number alone (R174). -/
theorem laneOf_eq_some {b : Byte} {l : Lane} : laneOf b = some l ↔ b = byte (laneNat l) := by
  constructor
  · unfold laneOf
    split
    iterate 2
      · rename_i h
        rintro ⟨⟩
        exact BitVec.eq_of_toNat_eq h
    · nofun
  · rintro rfl
    simp

end Sys2Proof.Machine
end

