-- ==== Sys2Proof/WellFormed.lean ====
section
/-! DEFINITION. Which steps are well formed: a step that takes a frame carries a well-formed frame of
its kind (R3, R4). -/

namespace Sys2Proof

open Machine

/-- The kind and the unit of a step that takes a frame. -/
def Instr.frame? : Instr → Option (Byte × List Byte)
  | .sampleFrame u => some (kindSample, u)
  | .commandFrame u => some (kindCommand, u)
  | .actStatusFrame u => some (kindActStatus, u)
  | .powerOn | .resetInput | .resetInactive | .unitReceived _ | .transmissionEnd | .beltStep _ _ | .leadingEdge _
  | .trailingEdge _ | .holdEnd _ | .coveredLimit _ | .overlengthPoint _ _ | .sampleWaitExpiry _ _ | .decisionPoint _ _
  | .strikeStart _ _ _ | .strikeEnd _ _ _ | .pocketPoint _ _ | .retirement _ _ | .windowEnd _ | .commandTake
  | .engineTake | .scoringComplete | .entryApplication | .unknownCommand | .linkAddress | .linkCountersClear
  | .statusRead | .laneTrackRead | .noticeMask | .pieceReport | .reportFlush | .clearIndications | .lineReset
  | .laneStart | .laneStop | .jamClear | .pieceAudit | .auditRead | .auditRelease | .inkRefill | .dieDate | .sweepStart
  | .sweepDone | .countSnapshot | .tableOpen | .tableFill | .tableCommit | .tableAbandon | .tableStatusClear
  | .tableSuspend | .tableResume | .tableLock | .tableRead => none

/-- A step is well formed: the unit it carries as a frame of a kind passes the reception tests and is
of that kind. A received unit of any bytes is well formed, as any bytes can arrive. -/
def Instr.wellFormed (i : Instr) : Bool :=
  match i.frame? with
  | some (kind, u) => (frameOfKind kind u).isSome
  | none => true

end Sys2Proof
end

