-- ==== Sys2Proof/Laws/PerInstr.lean ====
section
/-! SUPPORT. Statements made of every step one by one: its carried unit is of the size of a frame. -/

namespace Sys2Proof.Laws

/-- A frame of a kind is 8 to 263 bytes long (R1, R3). -/
theorem frameOfKind_size {kind : Byte} {u : List Byte} (h : (Machine.frameOfKind kind u).isSome = true) :
    8 ≤ u.length ∧ u.length ≤ 263 := by
  by_cases hs : u.length < 8 || 263 < u.length
  · simp [Machine.frameOfKind, Machine.receive, hs] at h
  · simp only [Bool.or_eq_true, decide_eq_true_eq, not_or, Nat.not_lt] at hs
    exact hs

/-- The unit that a well-formed step carries as a frame is 8 to 263 bytes long (R1, R3). -/
def FrameSize.Statement (i : Instr) : Prop :=
  i.wellFormed = true → ∀ k u, i.frame? = some (k, u) → 8 ≤ u.length ∧ u.length ≤ 263

/-- A step that carries no frame says nothing of a size. -/
theorem FrameSize.of_none {i : Instr} (h : i.frame? = none) : FrameSize.Statement i := by
  intro _ k u hu
  rw [h] at hu
  exact absurd hu (by simp)

/-- A step that carries a frame is well formed by its frame. -/
theorem FrameSize.of_some {i : Instr} {k : Byte} {u : List Byte} (h : i.frame? = some (k, u)) : FrameSize.Statement i := by
  intro hw k' u' hu
  rw [h] at hu
  obtain ⟨rfl, rfl⟩ := Prod.mk.inj (Option.some.inj hu)
  simp only [Instr.wellFormed, h] at hw
  exact frameOfKind_size hw

theorem FrameSize.powerOn : FrameSize.Statement .powerOn := FrameSize.of_none rfl
theorem FrameSize.resetInput : FrameSize.Statement .resetInput := FrameSize.of_none rfl
theorem FrameSize.resetInactive : FrameSize.Statement .resetInactive := FrameSize.of_none rfl
theorem FrameSize.unitReceived (u : List Byte) : FrameSize.Statement (.unitReceived u) := FrameSize.of_none rfl
theorem FrameSize.sampleFrame (u : List Byte) : FrameSize.Statement (.sampleFrame u) := FrameSize.of_some rfl
theorem FrameSize.commandFrame (u : List Byte) : FrameSize.Statement (.commandFrame u) := FrameSize.of_some rfl
theorem FrameSize.actStatusFrame (u : List Byte) : FrameSize.Statement (.actStatusFrame u) := FrameSize.of_some rfl
theorem FrameSize.transmissionEnd : FrameSize.Statement .transmissionEnd := FrameSize.of_none rfl
theorem FrameSize.beltStep (l : Lane) (f : Bool) : FrameSize.Statement (.beltStep l f) := FrameSize.of_none rfl
theorem FrameSize.leadingEdge (l : Lane) : FrameSize.Statement (.leadingEdge l) := FrameSize.of_none rfl
theorem FrameSize.trailingEdge (l : Lane) : FrameSize.Statement (.trailingEdge l) := FrameSize.of_none rfl
theorem FrameSize.holdEnd (l : Lane) : FrameSize.Statement (.holdEnd l) := FrameSize.of_none rfl
theorem FrameSize.coveredLimit (l : Lane) : FrameSize.Statement (.coveredLimit l) := FrameSize.of_none rfl
theorem FrameSize.overlengthPoint (l : Lane) (t : Tag) : FrameSize.Statement (.overlengthPoint l t) := FrameSize.of_none rfl
theorem FrameSize.sampleWaitExpiry (l : Lane) (t : Tag) : FrameSize.Statement (.sampleWaitExpiry l t) := FrameSize.of_none rfl
theorem FrameSize.decisionPoint (l : Lane) (t : Tag) : FrameSize.Statement (.decisionPoint l t) := FrameSize.of_none rfl
theorem FrameSize.strikeStart (l : Lane) (h : HeadId) (t : Tag) : FrameSize.Statement (.strikeStart l h t) := FrameSize.of_none rfl
theorem FrameSize.strikeEnd (l : Lane) (h : HeadId) (t : Tag) : FrameSize.Statement (.strikeEnd l h t) := FrameSize.of_none rfl
theorem FrameSize.pocketPoint (l : Lane) (t : Tag) : FrameSize.Statement (.pocketPoint l t) := FrameSize.of_none rfl
theorem FrameSize.retirement (l : Lane) (t : Tag) : FrameSize.Statement (.retirement l t) := FrameSize.of_none rfl
theorem FrameSize.windowEnd (l : Lane) : FrameSize.Statement (.windowEnd l) := FrameSize.of_none rfl
theorem FrameSize.commandTake : FrameSize.Statement .commandTake := FrameSize.of_none rfl
theorem FrameSize.engineTake : FrameSize.Statement .engineTake := FrameSize.of_none rfl
theorem FrameSize.scoringComplete : FrameSize.Statement .scoringComplete := FrameSize.of_none rfl
theorem FrameSize.entryApplication : FrameSize.Statement .entryApplication := FrameSize.of_none rfl
theorem FrameSize.unknownCommand : FrameSize.Statement .unknownCommand := FrameSize.of_none rfl
theorem FrameSize.linkAddress : FrameSize.Statement .linkAddress := FrameSize.of_none rfl
theorem FrameSize.linkCountersClear : FrameSize.Statement .linkCountersClear := FrameSize.of_none rfl
theorem FrameSize.statusRead : FrameSize.Statement .statusRead := FrameSize.of_none rfl
theorem FrameSize.laneTrackRead : FrameSize.Statement .laneTrackRead := FrameSize.of_none rfl
theorem FrameSize.noticeMask : FrameSize.Statement .noticeMask := FrameSize.of_none rfl
theorem FrameSize.pieceReport : FrameSize.Statement .pieceReport := FrameSize.of_none rfl
theorem FrameSize.reportFlush : FrameSize.Statement .reportFlush := FrameSize.of_none rfl
theorem FrameSize.clearIndications : FrameSize.Statement .clearIndications := FrameSize.of_none rfl
theorem FrameSize.lineReset : FrameSize.Statement .lineReset := FrameSize.of_none rfl
theorem FrameSize.laneStart : FrameSize.Statement .laneStart := FrameSize.of_none rfl
theorem FrameSize.laneStop : FrameSize.Statement .laneStop := FrameSize.of_none rfl
theorem FrameSize.jamClear : FrameSize.Statement .jamClear := FrameSize.of_none rfl
theorem FrameSize.pieceAudit : FrameSize.Statement .pieceAudit := FrameSize.of_none rfl
theorem FrameSize.auditRead : FrameSize.Statement .auditRead := FrameSize.of_none rfl
theorem FrameSize.auditRelease : FrameSize.Statement .auditRelease := FrameSize.of_none rfl
theorem FrameSize.inkRefill : FrameSize.Statement .inkRefill := FrameSize.of_none rfl
theorem FrameSize.dieDate : FrameSize.Statement .dieDate := FrameSize.of_none rfl
theorem FrameSize.sweepStart : FrameSize.Statement .sweepStart := FrameSize.of_none rfl
theorem FrameSize.sweepDone : FrameSize.Statement .sweepDone := FrameSize.of_none rfl
theorem FrameSize.countSnapshot : FrameSize.Statement .countSnapshot := FrameSize.of_none rfl
theorem FrameSize.tableOpen : FrameSize.Statement .tableOpen := FrameSize.of_none rfl
theorem FrameSize.tableFill : FrameSize.Statement .tableFill := FrameSize.of_none rfl
theorem FrameSize.tableCommit : FrameSize.Statement .tableCommit := FrameSize.of_none rfl
theorem FrameSize.tableAbandon : FrameSize.Statement .tableAbandon := FrameSize.of_none rfl
theorem FrameSize.tableStatusClear : FrameSize.Statement .tableStatusClear := FrameSize.of_none rfl
theorem FrameSize.tableSuspend : FrameSize.Statement .tableSuspend := FrameSize.of_none rfl
theorem FrameSize.tableResume : FrameSize.Statement .tableResume := FrameSize.of_none rfl
theorem FrameSize.tableLock : FrameSize.Statement .tableLock := FrameSize.of_none rfl
theorem FrameSize.tableRead : FrameSize.Statement .tableRead := FrameSize.of_none rfl

end Sys2Proof.Laws
end

