-- ==== Sys2Proof/Laws/Rings.lean ====
section
/-! SUPPORT. The band rings (R63): a write keeps the one form, and is read back from its own entry
alone. -/

namespace Sys2Proof.Machine

/-- An empty ring is in the one form. -/
theorem Ring.canonical_nil : Ring.canonical [] := ⟨List.Pairwise.nil, fun _ h => absurd h List.not_mem_nil⟩

/-- The entry numbers of a written ring are its old ones and the written one. -/
theorem Ring.write_numbers (r : Ring) (i : Nat) (e : RingEntry) (x : Nat × RingEntry) (h : x ∈ Ring.write r i e) :
    x.1 = i ∨ ∃ y ∈ r, y.1 = x.1 := by
  induction r with
  | nil => simp only [Ring.write, List.mem_singleton] at h; exact .inl (by rw [h])
  | cons a r ih =>
    obtain ⟨j, d⟩ := a
    simp only [Ring.write] at h
    split at h
    · rcases List.mem_cons.1 h with rfl | h
      · exact .inl rfl
      · exact .inr ⟨x, List.mem_cons_of_mem _ h, rfl⟩
    · split at h
      · rcases List.mem_cons.1 h with rfl | h
        · exact .inl rfl
        · exact .inr ⟨x, h, rfl⟩
      · rcases List.mem_cons.1 h with rfl | h
        · exact .inr ⟨_, List.mem_cons_self, rfl⟩
        · rcases ih h with h | ⟨y, hy, h⟩
          · exact .inl h
          · exact .inr ⟨y, List.mem_cons_of_mem _ hy, h⟩

/-- A write of an entry below 1,024 keeps the one form (R63). -/
theorem Ring.write_canonical {r : Ring} (hc : r.canonical) {i : Nat} (hi : i < Config.ringSize) (e : RingEntry) :
    (Ring.write r i e).canonical := by
  induction r with
  | nil => simp [Ring.write, Ring.canonical, hi]
  | cons a r ih =>
    obtain ⟨j, d⟩ := a
    obtain ⟨h1, h2⟩ := hc
    rw [List.pairwise_cons] at h1
    have hr : Ring.canonical r := ⟨h1.2, fun x hx => h2 x (List.mem_cons_of_mem _ hx)⟩
    simp only [Ring.write]
    split
    · rename_i hij
      subst hij
      refine ⟨List.pairwise_cons.2 h1, fun x hx => ?_⟩
      rcases List.mem_cons.1 hx with rfl | hx
      · exact hi
      · exact hr.2 x hx
    · split
      · rename_i hij
        refine ⟨List.pairwise_cons.2 ⟨fun x hx => ?_, List.pairwise_cons.2 h1⟩, fun x hx => ?_⟩
        · rcases List.mem_cons.1 hx with rfl | hx
          · exact hij
          · exact Nat.lt_trans hij (h1.1 x hx)
        · rcases List.mem_cons.1 hx with rfl | hx
          · exact hi
          · exact h2 x hx
      · rename_i hne hij
        refine ⟨List.pairwise_cons.2 ⟨fun x hx => ?_, (ih hr).1⟩, fun x hx => ?_⟩
        · rcases Ring.write_numbers r i e x hx with h | ⟨y, hy, h⟩
          · show j < x.1
            omega
          · have := h1.1 y hy
            show j < x.1
            simp only at this
            omega
        · rcases List.mem_cons.1 hx with rfl | hx
          · exact h2 _ List.mem_cons_self
          · exact (ih hr).2 x hx

/-- A filed sample keeps the one form (R63). -/
theorem Ring.file_canonical {r : Ring} (hc : r.canonical) (p : Pos) (x : Sample) : (Ring.file r p x).canonical :=
  Ring.write_canonical hc (Nat.mod_lt _ (by decide)) _

/-- An entry numbered below every entry of a ring is empty. -/
theorem Ring.read_below {r : Ring} {j : Nat} (h : ∀ x ∈ r, j < x.1) : Ring.read r j = none := by
  cases r with
  | nil => rfl
  | cons a r =>
    obtain ⟨k, d⟩ := a
    have : j < k := h _ List.mem_cons_self
    simp only [Ring.read]
    rw [if_neg (by omega), if_pos this]

/-- A written entry is read back, and every other entry is read as before (R63). -/
theorem Ring.read_write {r : Ring} (hc : r.canonical) (i j : Nat) (e : RingEntry) :
    Ring.read (Ring.write r i e) j = if j = i then some e else Ring.read r j := by
  induction r with
  | nil =>
    simp only [Ring.write, Ring.read]
    split
    · rfl
    · split <;> rfl
  | cons a r ih =>
    obtain ⟨k, d⟩ := a
    obtain ⟨h1, h2⟩ := hc
    rw [List.pairwise_cons] at h1
    have ih := ih ⟨h1.2, fun x hx => h2 x (List.mem_cons_of_mem _ hx)⟩
    simp only [Ring.write]
    split
    · rename_i hij
      subst hij
      simp only [Ring.read]
      split <;> rfl
    · split
      · rename_i hne hij
        by_cases hji : j = i
        · subst hji; simp [Ring.read]
        · simp only [Ring.read, if_neg hji]
          by_cases hlt : j < i
          · rw [if_pos hlt, if_neg (by omega), if_pos (by omega)]
          · rw [if_neg hlt]
      · rename_i hne hij
        simp only [Ring.read, ih]
        by_cases hji : j = i
        · subst hji
          simp [if_neg hne, if_neg hij]
        · simp [if_neg hji]

/-- Every ring is in its one form at power-on (R76). -/
theorem State.reset_ringsCanonical : State.reset.RingsCanonical := by
  intro l b; cases l <;> cases b <;> exact Ring.canonical_nil

end Sys2Proof.Machine
end

