-- ==== Sys2Proof/Laws/Tables.lean ====
section
/-! SUPPORT. The Signature Table's order, the entries a TABLE_FILL carries, and the reading of staged
entries. -/

namespace Sys2Proof.Machine

/-- Keys with one place in key order are one key (R92). -/
theorem SigKey.rank_injective {a b : SigKey} (h : a.rank = b.rank) : a = b := by
  obtain ⟨⟨p, hp⟩, ⟨w, hw⟩, ⟨x, hx⟩⟩ := a
  obtain ⟨⟨p', hp'⟩, ⟨w', hw'⟩, ⟨x', hx'⟩⟩ := b
  simp only [SigKey.rank] at h
  congr <;> omega

/-- A table in strictly ascending key order (R92). -/
abbrev InKeyOrder (t : List SigEntry) : Prop := t.Pairwise fun x y => x.key.rank < y.key.rank

/-- What a PUT leaves in the table (R93). -/
theorem mem_putSignature {t : List SigEntry} (h : InKeyOrder t) (e d : SigEntry) :
    d ∈ putSignature e t ↔ d = e ∨ d ∈ t ∧ d.key ≠ e.key := by
  induction t with
  | nil => simp [putSignature]
  | cons a t ih =>
    obtain ⟨h1, h2⟩ := List.pairwise_cons.1 h
    have apart : ∀ x ∈ t, x.key ≠ a.key := fun x hx hh => by have := h1 x hx; rw [hh] at this; omega
    simp only [putSignature]
    split
    · rename_i hk
      simp only [List.mem_cons]
      constructor
      · rintro (h | h)
        · exact .inl h
        · exact .inr ⟨.inr h, hk ▸ apart d h⟩
      · rintro (h | ⟨rfl | h, h3⟩)
        · exact .inl h
        · exact absurd hk.symm h3
        · exact .inr h
    · rename_i hk
      split
      · rename_i hlt
        simp only [List.mem_cons]
        constructor
        · rintro (h | rfl | h)
          · exact .inl h
          · exact .inr ⟨.inl rfl, fun hh => hk hh.symm⟩
          · exact .inr ⟨.inr h, fun hh => by have := h1 d h; rw [hh] at this; omega⟩
        · rintro (h | ⟨h, _⟩)
          · exact .inl h
          · exact .inr h
      · simp only [List.mem_cons, ih h2]
        constructor
        · rintro (rfl | h | h)
          · exact .inr ⟨.inl rfl, fun hh => hk hh.symm⟩
          · exact .inl h
          · exact .inr ⟨.inr h.1, h.2⟩
        · rintro (h | ⟨h | h, h3⟩)
          · exact .inr (.inl h)
          · exact .inl h
          · exact .inr (.inr ⟨h, h3⟩)

/-- A PUT keeps key order (R92, R93). -/
theorem putSignature_order {t : List SigEntry} (h : InKeyOrder t) (e : SigEntry) : InKeyOrder (putSignature e t) := by
  induction t with
  | nil => exact List.pairwise_singleton _ _
  | cons a t ih =>
    obtain ⟨h1, h2⟩ := List.pairwise_cons.1 h
    simp only [putSignature]
    split
    · rename_i hk
      exact List.pairwise_cons.2 ⟨fun x hx => hk ▸ h1 x hx, h2⟩
    · rename_i hk
      split
      · rename_i hlt
        refine List.pairwise_cons.2 ⟨fun x hx => ?_, h⟩
        rcases List.mem_cons.1 hx with rfl | hx
        · exact hlt
        · exact Nat.lt_trans hlt (h1 x hx)
      · rename_i hlt
        refine List.pairwise_cons.2 ⟨fun x hx => ?_, ih h2⟩
        rcases (mem_putSignature h2 e x).1 hx with rfl | hx
        · rcases Nat.lt_or_ge a.key.rank x.key.rank with h3 | h3
          · exact h3
          · exact absurd (SigKey.rank_injective (Nat.le_antisymm h3 (Nat.not_lt.1 hlt))) hk
        · exact h1 x hx.1

/-- A DROP keeps key order (R92, R93). -/
theorem dropSignature_order {t : List SigEntry} (h : InKeyOrder t) (k : SigKey) : InKeyOrder (dropSignature k t) :=
  List.Pairwise.filter _ h

/-- Entries can be so long exactly when some tables give them that length (12.4). -/
theorem entriesFit_iff (k n : Nat) :
    entriesFit k n = true ↔ ∃ ts : List Table, ts.length = k ∧ (ts.map Table.entrySize).sum = n := by
  induction k generalizing n with
  | zero =>
    simp only [entriesFit, beq_iff_eq, List.length_eq_zero_iff]
    exact ⟨fun h => ⟨[], rfl, h.symm⟩, fun ⟨_, h, hs⟩ => by subst h; exact hs.symm⟩
  | succ k ih =>
    have all : ∀ t : Table, t ∈ [Table.ink, .signature, .geometry, .stacker, .monitor, .die] := by intro t; cases t <;> decide
    simp only [entriesFit, List.any_eq_true, Bool.and_eq_true, decide_eq_true_eq, ih]
    constructor
    · rintro ⟨t, -, ht, ts, rfl, hs⟩
      exact ⟨t :: ts, rfl, by simp only [List.map_cons, List.sum_cons]; omega⟩
    · rintro ⟨ts, hl, hs⟩
      obtain _ | ⟨t, ts⟩ := ts
      · cases hl
      · simp only [List.map_cons, List.sum_cons, List.length_cons] at hl hs
        exact ⟨t, all t, by omega, ts, by omega, by omega⟩

/-- Whole entries at the front of a payload are taken off it, and the rest is taken apart as it stands
(R165, R175). -/
theorem splitEntries_append (es : List (Table × List Byte)) (k : Nat) (rest : List Byte)
    (h : ∀ e ∈ es, e.2.length + 1 = e.1.entrySize) :
    splitEntries (k + es.length) (es.flatMap (fun e => byte e.1.toNat :: e.2) ++ rest)
      = match splitEntries k rest with
        | .entries fs left => .entries (es ++ fs) left
        | x => x := by
  induction es with
  | nil =>
    simp only [List.length_nil, Nat.add_zero, List.flatMap_nil, List.nil_append]
    cases splitEntries k rest <;> rfl
  | cons e es ih =>
    have h1 := h e List.mem_cons_self
    have ih := ih fun e he => h e (List.mem_cons_of_mem _ he)
    obtain ⟨t, bs⟩ := e
    simp only at h1
    have hn : t.entrySize - 1 = bs.length := by omega
    simp only [List.length_cons, ← Nat.add_assoc, List.flatMap_cons, List.cons_append, List.append_assoc, splitEntries,
      tableOf_toNat, hn, List.drop_left, List.take_left, ih]
    rw [if_neg (by simp)]
    cases splitEntries k rest <;> rfl

/-- Whole entries at the front of a payload are taken apart again (R165, R175). -/
theorem splitEntries_whole (es : List (Table × List Byte)) (left : List Byte)
    (h : ∀ e ∈ es, e.2.length + 1 = e.1.entrySize) :
    splitEntries es.length (es.flatMap (fun e => byte e.1.toNat :: e.2) ++ left) = .entries es left := by
  have hs := splitEntries_append es 0 left h
  rw [Nat.zero_add] at hs
  simpa [splitEntries] using hs

/-- A payload that ends before its last entries is short (R175). -/
theorem splitEntries_short (es : List (Table × List Byte)) (k : Nat) (h : ∀ e ∈ es, e.2.length + 1 = e.1.entrySize) :
    splitEntries (k + 1 + es.length) (es.flatMap fun e => byte e.1.toNat :: e.2) = .short := by
  have hs := splitEntries_append es (k + 1) [] h
  rw [List.append_nil] at hs
  simpa [splitEntries] using hs

/-- A payload that ends inside an entry is short (R175). -/
theorem splitEntries_cut (es : List (Table × List Byte)) (k : Nat) (t : Table) (bs : List Byte)
    (h : ∀ e ∈ es, e.2.length + 1 = e.1.entrySize) (hb : bs.length + 1 < t.entrySize) :
    splitEntries (k + 1 + es.length) (es.flatMap (fun e => byte e.1.toNat :: e.2) ++ byte t.toNat :: bs) = .short := by
  rw [splitEntries_append es (k + 1) _ h]
  simp only [splitEntries, tableOf_toNat]
  rw [if_pos (by omega)]

/-- An unknown table byte is met after whole entries: the length is allowed, or it is not (R20, R175; log
entry 12). -/
theorem splitEntries_unknown (es : List (Table × List Byte)) (k : Nat) (z : Byte) (bs : List Byte)
    (h : ∀ e ∈ es, e.2.length + 1 = e.1.entrySize) (hz : 5 < z.toNat) :
    splitEntries (k + 1 + es.length) (es.flatMap (fun e => byte e.1.toNat :: e.2) ++ z :: bs)
      = if entriesFit (k + 1) (bs.length + 1) then .unknownTable else .short := by
  have ht : tableOf z = none := by
    unfold tableOf
    split <;> first | rfl | omega
  rw [splitEntries_append es (k + 1) _ h]
  simp only [splitEntries, ht]
  cases entriesFit (k + 1) (bs.length + 1) <;> rfl

/-- Every staged entry is read (R167). -/
theorem mapM_eq_some {α β : Type} (f : α → Option β) (xs : List α) (ys : List β) :
    xs.mapM f = some ys ↔ xs.map f = ys.map some := by
  induction xs generalizing ys with
  | nil => cases ys <;> simp
  | cons a xs ih =>
    cases ys with
    | nil => simp [List.mapM_cons]; cases f a <;> simp; cases List.mapM f xs <;> simp
    | cons b ys =>
      simp [List.mapM_cons, ← ih]; cases f a <;> simp
      cases hx : xs.mapM f <;> simp

/-- Some staged entry is not read (R167). -/
theorem mapM_eq_none {α β : Type} (f : α → Option β) (xs : List α) : xs.mapM f = none ↔ ∃ x ∈ xs, f x = none := by
  induction xs with
  | nil => simp
  | cons a xs ih =>
    simp [List.mapM_cons, ← ih]; cases f a <;> simp
    cases hx : xs.mapM f <;> simp

/-- An option kept under a condition. -/
theorem keepIf_eq_some {α : Type} {b : Bool} {x y : α} : keepIf b x = some y ↔ b = true ∧ x = y := by
  cases b <;> simp [keepIf]

/-- A TABLE_FILL with a k that its layout does not allow has a wrong length (R20; log entry 20). -/
theorem fillArgs_outside {k : Byte} (h : k.toNat = 0 ∨ 8 < k.toNat) (bs : List Byte) : fillArgs (k :: bs) = .wrongLength :=
  if_neg (by omega)

/-- A TABLE_FILL with a k of 1 to 8 is what its bytes after k spell (R165, R175). -/
theorem fillArgs_inside {n : Nat} (h1 : 1 ≤ n) (h8 : n ≤ 8) (bs : List Byte) :
    fillArgs (byte n :: bs)
      = match splitEntries n bs with
        | .short => .wrongLength
        | .unknownTable => .outOfRange
        | .entries es left => if left ≠ [] then .wrongLength else .valid es := by
  have hk : (byte n).toNat = n := byte_toNat (by omega)
  rw [fillArgs, hk, if_pos ⟨h1, h8⟩]
  all_goals cases splitEntries n bs <;> rfl

/-- A TABLE_FILL of whole entries carries them (R165, R175). -/
theorem fillArgs_whole {es : List (Table × List Byte)} (h : ∀ e ∈ es, e.2.length + 1 = e.1.entrySize)
    (h1 : 1 ≤ es.length) (h8 : es.length ≤ 8) :
    fillArgs (byte es.length :: es.flatMap fun e => byte e.1.toNat :: e.2) = .valid es := by
  have hs := splitEntries_whole es [] h
  rw [List.append_nil] at hs
  rw [fillArgs_inside h1 h8, hs]
  rfl

end Sys2Proof.Machine
end

