-- ==== Sys2Proof/Tests/Slice0.lean ====
section
/-! SUPPORT. The model's own tests: ill-formed steps, a few numbers worked out in the spec, and for every
statement with hypotheses a witness that meets them, clause by clause. -/

namespace Sys2Proof.Tests

open Machine

/-! ### States to test on -/

/-- The example record of 3.2, with both reference seeds at 300. -/
def exampleGeometry (scanner : Station) : Geometry :=
  { loaded := true, scanSource := scanner, minLen := 500, maxLen := 1250, minGap := 100, maxCovered := 3000
    sampleWait := 60, cornerLen := 100, refSeedPH := 300, refSeedFL := 300, refGuard := 40, dDecide := 1500
    dGate := 2000, gateSettle := 300, dHeadL := 2600, dHeadT := 3200, leadIn := 20, strikeLen := 400
    recoverLen := 150, dPocket := 4600, dStack := 5200, reverseLimit := 50 }

/-- The tables of a part that can run: the example geometry, profile 0, pocket 0 for every route, a die. -/
def tables : Tables :=
  { Tables.initial with
    geometry := ⟨exampleGeometry ⟨9, 9⟩, exampleGeometry ⟨8, 8⟩⟩
    profiles := Vector.replicate 8 { Profile.initial with enable := true, scoreMax := 65535, runMax := 200 }
    stacker := ⟨{ Stacker.initial with routes := Vector.replicate 9 [0] }, Stacker.initial⟩
    dieCommon := { Tables.initial.dieCommon with loaded := true } }

/-- A part whose tables are loaded, with lane A as given. -/
def plant (a : LaneS) : State :=
  { State.reset with
    store := { State.reset.store with tables := tables }, date := some ⟨2026, 7, 1, 9⟩, lanes := ⟨a, .initial⟩ }

/-- A monitor window that ends at a position. -/
def window (stop : Pos) : Window :=
  { start := stop - 10000, stop := stop, profile := MonitorProfile.initial, reject := 0, late := 0, shingle := 0
    reference := ⟨0, 0, 0, 0⟩ }

/-- A running lane at a belt position, with an eye state and records. -/
def lane (belt : Pos) (eye : Eye) (list : List Piece) : LaneS :=
  { LaneS.initial with
    state := .running, belt := belt, eye := eye, list := list, nextTag := 40, forwardMark := some belt
    heads := ⟨{ Head.initial with units := 500, ink := false }, { Head.initial with units := 500, ink := false }⟩
    window := some (window (belt + 10000)), feedRate := .full
    counters := { LaneCounters.zero with captured := list.length } }

/-- A record as captured (R41). -/
def fresh (tag : Tag) (lead : Pos) : Piece :=
  { tag := tag, lead := lead, length := none, shingled := false, overlength := false, lateFound := false
    staleRef := false, multi := false, scan := .collecting, finding := none, gate := none, stream := none
    route := none, cancel := .nothing, strikeStart := none, pocket := none, disposition := none, value := 0
    overlengthTaken := false, sampleWaitDue := false, decisionTaken := false, pocketTaken := false }

/-- The finding of a stamp at C3 with an ordinary signature. -/
def stampHit : Hit :=
  { corner := .c3, profile := 0, kind := .stamp, score := 11520, run := 30, stampStart := 20, category := some 12 }

/-- A finding with a result. -/
def found (r : FindingResult) : Finding := { result := r, value := 55, precancel := false, multi := false, staleRef := false }

/-- A record of length 900 that is SCORED. -/
def scored (tag : Tag) (lead : Pos) (r : FindingResult) : Piece :=
  { fresh tag lead with length := some 900, scan := .scored, finding := some (found r) }

/-- A record whose decision and pocket point have been taken. -/
def decided (tag : Tag) (lead : Pos) (pocketTaken : Bool) : Piece :=
  { scored tag lead (.hit stampHit) with
    decisionTaken := true, pocketTaken := pocketTaken, disposition := some .facedHand, stream := some .l
    gate := some .pass, route := some .hand, cancel := .missed }

/-- The command that a test executes. -/
def asked (code : Byte) (args : List Byte) : Cmd := ⟨⟨1, 1⟩, code, 5, args⟩

/-- A part that executes a command. -/
def ask (s : State) (code : Byte) (args : List Byte) : State :=
  { s with interp := ⟨[], some (asked code args)⟩, reports := { s.reports with reserved := 1 } }

/-- Nothing waits for the outbound link. -/
abbrev Idle (s : State) : Prop := s.link.act = ⟨[], []⟩ ∧ s.reports.queued = []

theorem Idle.filed {s : State} (h : Idle s) : s.FramesFiled :=
  ⟨fun l f hf => by cases l <;> simp [h.1, PerLane.get] at hf, fun f hf => by simp [h.2] at hf⟩

theorem Idle.slots {s : State} (h : Idle s) {n : Nat} (hn : s.reports.reserved + n ≤ 32) : s.Slots n := by
  simpa [State.Slots, h.2, Config.reportSlots] using hn

theorem Idle.places {s : State} (h : Idle s) (l : Lane) {n : Nat} (hn : n ≤ 8) : s.Places l n := by
  cases l <;> simpa [State.Places, h.1, PerLane.get, Config.actDepth] using hn

theorem Idle.room {s : State} (h : Idle s) (l : Lane) {n m : Nat} (hn : s.reports.reserved + n ≤ 32) (hm : m ≤ 8) :
    s.Room l n m := ⟨h.filed, h.slots hn, h.places l hm⟩

theorem Idle.executing {s : State} (h : Idle s) (code : Byte) (args : List Byte) :
    Executing (ask s code args) code (asked code args) := ⟨rfl, rfl, Idle.filed h⟩

/-- The part at power-on. -/
theorem idle_reset : Idle State.reset := ⟨rfl, rfl⟩

theorem idle_plant (a : LaneS) : Idle (plant a) := ⟨rfl, rfl⟩


/-! ### Ill-formed steps -/

/-- A unit below eight bytes is no frame (R3). -/
theorem test_short_unit_is_ill_formed : (Instr.commandFrame [1, 2, 3]).wellFormed = false := by decide

/-- A unit whose check fails is no frame (R3). -/
theorem test_bad_check_is_ill_formed : (Instr.actStatusFrame [0, 0, 0, 0, 0x32, 0, 1, 2]).wellFormed = false := by decide +kernel

/-- A frame of another kind is not the frame of a step (R4). -/
theorem test_other_kind_is_ill_formed :
    (Instr.sampleFrame (frameBytes ⟨1, 1⟩ ⟨2, 2⟩ 0x21 [3, 5])).wellFormed = false
      ∧ (Instr.commandFrame (frameBytes ⟨1, 1⟩ ⟨2, 2⟩ 0x21 [3, 5])).wellFormed = true := by decide +kernel

/-! ### Numbers worked out in the spec -/

/-- The check of "123456789" (the tip under R2). -/
theorem test_check_value : crc [0x31, 0x32, 0x33, 0x34, 0x35, 0x36, 0x37, 0x38, 0x39] = 0x29B1#16 := by decide +kernel

/-- 4.1: the samples of the example move the reference to 299, 298, 300, 301 and 300. -/
theorem test_reference_moves :
    [292, 298, 331, 316, 300].foldl (fun r v => r ++ [(((r.getLastD 300 : Nat) : Int) + ((v : Int) - (r.getLastD 300 : Nat)).fdiv 16).toNat]) []
      = [299, 298, 300, 301, 300] := by decide

/-- 4.1: the first sample of the example, filed as a gap sample of band B-top. -/
theorem test_sample_is_filed :
    let s := plant { lane 299990 (.covered 300000) [fresh 50 300000] with refs := ⟨⟨0, 0⟩, ⟨0, 0⟩, ⟨300, 300⟩, ⟨0, 0⟩⟩ }
    let x := (s.takeSample .a .bTop 299950 ⟨292, 300⟩).lane .a
    (x.refs.bTop.ph, x.rings.bTop.map Prod.fst, x.highMarks.bTop) = (299, [471], some 299950) := by decide

/-- 5.7, case 1: the stamp at C3. -/
theorem test_stamp_is_scored :
    let w := List.replicate 10 (some (Sample.mk 320 0)) ++ List.replicate 30 (some (Sample.mk 1540 0))
      ++ List.replicate 10 (some (Sample.mk 330 0))
    scoreChannel ⟨40, 60, 200, 150⟩ 50 ⟨300, 300⟩ w .ph = { score := 11520, run := 30, first := 11, missing := 0 } := by decide +kernel

/-- 5.7, case 3: the sum saturates at m of 129. -/
theorem test_sum_saturates :
    (scoreChannel ⟨0, 0, 0, 0⟩ 129 ⟨0, 0⟩ (List.replicate 129 (some ⟨4095, 0⟩)) .ph).score = 65027 := by decide +kernel

/-- 6.6, tag 81: the gate is not clear, so the record goes to stream X and passes the gate as it stands. -/
theorem test_gate_is_not_clear :
    let p := scored 81 601700 (.hit stampHit)
    let s := plant { lane 603200 .armed [p] with gate := ⟨.flip, 603800⟩ }
    ∃ t, exec (.decisionPoint .a 81) s = .next t ∧ (t.lane .a).gate = ⟨.flip, 604900⟩
      ∧ (t.lane .a).list.map Piece.disposition = [some .rejectGate] := ⟨_, rfl, by decide, by decide⟩

/-- 7.8, tag 90: the strike that a decision books on head L. -/
theorem test_strike_is_booked :
    let p := { scored 90 700000 (.hit { stampHit with stampStart := 98 }) with length := some 500 }
    let s := plant { lane 701500 .armed [p] with gate := ⟨.pass, 699000⟩ }
    ∃ t, exec (.decisionPoint .a 90) s = .next t ∧ (t.head .a .l).booking.map Strike.start = [702678]
      ∧ (t.head .a .l).freePos = 703228 := ⟨_, rfl, by decide, by decide⟩

/-- 3.9: a piece of 270 steps is a glitch and counted so; the eye is armed again. -/
theorem test_glitch_is_retired :
    let s := plant { lane 201420 (.covered 201150) [fresh 41 201150] with eyeCovered := true }
    ∃ t, exec (.trailingEdge .a) s = .next t ∧ (t.lane .a).list = [] ∧ (t.lane .a).eye = .armed
      ∧ (t.lane .a).counters.dispositions.get 12 = 1 := ⟨_, rfl, by decide, by decide, by decide⟩

/-- 10.6, window 2: three late decisions over the limit 2 count one bad window. -/
theorem test_bad_window_is_counted :
    let w := { window 920000 with late := 3, profile := ⟨10000, ⟨.initial, ⟨true, 2, 2, 3⟩, .initial, .initial⟩⟩ }
    ∃ t, exec (.windowEnd .a) (plant { lane 920000 .armed [] with window := some w }) = .next t
      ∧ (t.lane .a).monitors.late = ⟨false, 1, 0⟩ := ⟨_, rfl, by decide⟩

/-- R20, R175: an unknown table byte alone is a length that no entry has; with five bytes after it, it is the
length of a Monitor Profile entry. -/
theorem test_unknown_table_byte :
    fillArgs [1, 9] = .wrongLength ∧ fillArgs (1 :: 9 :: List.replicate 5 0) = .outOfRange := ⟨rfl, rfl⟩

/-! ### Witnesses: commands and reads -/

theorem witness_StepRunsFrontOfQueue :
    { State.reset with pending := [.powerOn, .commandTake] }.pending = .powerOn :: [.commandTake] ∧ State.reset.pending = [] := ⟨rfl, rfl⟩

theorem witness_FailedChecksLeaveThePartAlone :
    (Executing (ask State.reset 0x00 []) (asked 0x00 []).code (asked 0x00 []) ∧ (asked 0x00 []).code ∉ commandCodes
        ∧ (asked 0x41 []).code ∉ commandCodes)
      ∧ (commandOf .linkAddress = some (0x01, 3) ∧ Executing (ask State.reset 0x01 [1, 1]) 0x01 (asked 0x01 [1, 1])
        ∧ (asked 0x01 [1, 1]).args.length ≠ 3 ∧ (asked 0x01 [1, 1, 0, 0]).args.length ≠ 3)
      ∧ (commandOf .laneStart = some (0x10, 1) ∧ Executing (ask State.reset 0x10 [2]) 0x10 (asked 0x10 [2])
        ∧ fieldOutOfRange 0x10 (asked 0x10 [2]).args) :=
  ⟨⟨idle_reset.executing _ _, by decide, by decide⟩, ⟨rfl, idle_reset.executing _ _, by decide, by decide⟩,
    ⟨rfl, idle_reset.executing _ _, by simp [fieldOutOfRange, asked]⟩⟩

theorem witness_LinkCommandsReplaceAndClear :
    (Executing (ask State.reset 0x01 [0xFE, 0xFE, 3]) 0x01 (asked 0x01 [0xFE, 0xFE, 3])
        ∧ (0xFE#8 : Byte) ≠ 0xFF#8 ∧ (3 : Byte).toNat = CompareMode.both.toNat)
      ∧ (Executing (ask State.reset 0x01 [0xFF, 0, 0]) 0x01 (asked 0x01 [0xFF, 0, 0]) ∧ 3 < (4 : Byte).toNat)
      ∧ (Executing (ask State.reset 0x02 [15]) 0x02 (asked 0x02 [15]) ∧ (15 : Byte).toNat < 16) :=
  ⟨⟨idle_reset.executing _ _, by decide, rfl⟩, ⟨idle_reset.executing _ _, by decide⟩, idle_reset.executing _ _, by decide⟩

theorem witness_StatusReadAnswersStatusBlock :
    Executing (ask State.reset 0x03 []) 0x03 (asked 0x03 []) ∧ (asked 0x03 []).args = [] := ⟨idle_reset.executing _ _, rfl⟩

theorem witness_LaneTrackReadAnswersRecords :
    Executing (ask State.reset 0x04 [1, 23, 4]) 0x04 (asked 0x04 [1, 23, 4])
      ∧ (asked 0x04 [1, 23, 4]).args = [byte (laneNat .b), byte 23, byte 4]
      ∧ (fresh 1 0).finding = none ∧ (scored 1 0 (.hit stampHit)).finding = some (found (.hit stampHit))
      ∧ ∀ h, (found .noMark).result ≠ .hit h := ⟨idle_reset.executing _ _, rfl, rfl, rfl, nofun⟩

/-- An audit capture of a piece. -/
def capture : Audit :=
  { lane := .a, tag := 40, m := 0, windows := ⟨[], [], [], []⟩, refs := ⟨⟨0, 0⟩, ⟨0, 0⟩, ⟨0, 0⟩, ⟨0, 0⟩⟩
    corners := scoreJob tables ⟨.a, 40, 0, 900, 0, ⟨[], [], [], []⟩, ⟨⟨0, 0⟩, ⟨0, 0⟩, ⟨0, 0⟩, ⟨0, 0⟩⟩⟩, result := .noMark }

/-- The part at power-on with a full audit store. -/
def audited : State := { State.reset with scan := { State.reset.scan with auditStore := some capture } }

theorem witness_AuditCommandsReadAndSet :
    (Executing (ask State.reset 0x19 [3, 7]) 0x19 (asked 0x19 [3, 7]) ∧ (asked 0x19 [3, 7]).args = [byte Corner.c4.toNat, byte 7]
        ∧ (ask State.reset 0x19 [3, 7]).scan.auditStore = none)
      ∧ (Executing (ask audited 0x19 [0, 0]) 0x19 (asked 0x19 [0, 0]) ∧ (asked 0x19 [0, 0]).args = [byte Corner.c1.toNat, byte 0]
        ∧ (ask audited 0x19 [0, 0]).scan.auditStore = some capture)
      ∧ (Executing (ask State.reset 0x18 (beBytes 2 1000)) 0x18 (asked 0x18 (beBytes 2 1000)))
      ∧ Executing (ask audited 0x1A []) 0x1A (asked 0x1A []) :=
  ⟨⟨idle_reset.executing _ _, rfl, rfl⟩, ⟨Idle.executing ⟨rfl, rfl⟩ _ _, rfl, rfl⟩, idle_reset.executing _ _,
    Idle.executing ⟨rfl, rfl⟩ _ _⟩

theorem witness_TableReadAnswersEntries :
    Executing (ask State.reset 0x40 [5, 255, 8]) 0x40 (asked 0x40 [5, 255, 8])
      ∧ (asked 0x40 [5, 255, 8]).args = [byte Table.die.toNat, byte 255, byte 8] := ⟨idle_reset.executing _ _, rfl⟩

/-- The part at power-on with piece reporting on and one record in its batch. -/
def reporting : State :=
  { State.reset with
    reports := { State.reset.reports with mask := 0xFF, batch := [(fresh 1 0).reported .a .facedHand] } }

theorem witness_MaskAndBatchCommandsCloseTheBatch :
    (Executing (ask reporting 0x05 [0x7F]) 0x05 (asked 0x05 [0x7F]) ∧ (ask reporting 0x05 [0x7F]).reports.mask.getLsbD 7 = true
        ∧ (0x7F#8).getLsbD 7 = false)
      ∧ (Executing (ask State.reset 0x05 [0xFF]) 0x05 (asked 0x05 [0xFF])
        ∧ (ask State.reset 0x05 [0xFF]).reports.mask.getLsbD 7 = false)
      ∧ (Executing (ask reporting 0x06 [0, 8]) 0x06 (asked 0x06 [0, 8]) ∧ (asked 0x06 [0, 8]).args = [0, byte 8]
        ∧ (ask reporting 0x06 [0, 8]).reports.mask.getLsbD 7 = true)
      ∧ (Executing (ask State.reset 0x06 [0, 8]) 0x06 (asked 0x06 [0, 8])
        ∧ (ask State.reset 0x06 [0, 8]).reports.mask.getLsbD 7 = false)
      ∧ (Executing (ask reporting 0x06 [1, 1]) 0x06 (asked 0x06 [1, 1]) ∧ (asked 0x06 [1, 1]).args = [1, byte 1]
        ∧ 1 ≤ (ask reporting 0x06 [1, 1]).reports.batch.length)
      ∧ (Executing (ask reporting 0x06 [1, 2]) 0x06 (asked 0x06 [1, 2]) ∧ (ask reporting 0x06 [1, 2]).reports.batch.length < 2)
      ∧ Executing (ask reporting 0x07 []) 0x07 (asked 0x07 []) :=
  have h : Idle reporting := ⟨rfl, rfl⟩
  ⟨⟨h.executing _ _, by decide, by decide⟩, ⟨idle_reset.executing _ _, by decide⟩, ⟨h.executing _ _, rfl, by decide⟩,
    ⟨idle_reset.executing _ _, by decide⟩, ⟨h.executing _ _, rfl, by decide⟩, ⟨h.executing _ _, by decide⟩, h.executing _ _⟩

theorem witness_IndicationsAreClearedAndDriveAlert :
    Executing (ask State.reset 0x08 [0x07, 0xFF]) 0x08 (asked 0x08 [0x07, 0xFF])
      ∧ (asked 0x08 [0x07, 0xFF]).args = beBytes 2 (0x7FF#11).toNat := ⟨idle_reset.executing _ _, rfl⟩

theorem witness_NoticeIsQueuedOrLost : State.reset.FramesFiled := idle_reset.filed

theorem witness_LineResetTakesResetValues :
    (State.reset.FramesFiled ∧ (∀ l, (State.reset.lane l).InboundRight) ∧ State.reset.resetActive = false)
      ∧ ({ State.reset with resetActive := true }.FramesFiled ∧ { State.reset with resetActive := true }.resetActive = true)
      ∧ Executing (ask State.reset 0x09 []) 0x09 (asked 0x09 []) := by
  refine ⟨⟨idle_reset.filed, fun l => ?_, rfl⟩, ⟨Idle.filed ⟨rfl, rfl⟩, rfl⟩, idle_reset.executing _ _⟩
  cases l <;> (intro k; revert k; decide)

/-! ### Witnesses: units and frames -/

/-- Payload bytes of a number, all 0. -/
def zeros (n : Nat) : List Byte := List.replicate n 0

theorem witness_ReceivedUnitIsTheFrameItSpells :
    (zeros 255).length ≤ 255
      ∧ receive (frameBytes ⟨1, 2⟩ ⟨3, 4⟩ 0x21 [3, 5]) = .wellFormed { dest := ⟨1, 2⟩, src := ⟨3, 4⟩, kind := 0x21, payload := [3, 5] } := by
  decide +kernel

/-- A part whose station address is (3, 17), comparing both bytes. -/
def stationed : State := { State.reset with link := { State.reset.link with station := ⟨3, 17⟩, mode := .both } }

theorem witness_UnitsAreDroppedForwardedOrCounted :
    ((zeros 7).length < 8 ∧ 263 < (zeros 264).length)
      ∧ (8 ≤ [0, 0, 0, 0, 0x21, 0, 0, 0].length ∧ [0, 0, 0, 0, 0x21, 0, 0, 0].length ≤ 263
        ∧ checkBytes ([0, 0, 0, 0, 0x21, 0, 0, 0].take 6) ≠ ([0, 0, 0, 0, 0x21, 0, 0, 0] : List Byte).drop 6)
      ∧ (let u : List Byte := [0, 0, 0, 0, 0x21, 1] ++ checkBytes [0, 0, 0, 0, 0x21, 1]
        checkBytes (u.take (u.length - 2)) = u.drop (u.length - 2) ∧ (u.getD 5 0).toNat ≠ u.length - 8)
      ∧ ((0x20 : Byte) ∉ [0x11#8, 0x21, 0x22, 0x23, 0x31, 0x32] ∧ State.reset.link.named ⟨9, 9⟩ ∧ State.reset.FramesFiled)
      ∧ ((0x31 : Byte) ∈ [0x22#8, 0x23, 0x31] ∧ State.reset.link.fifo.length < 4)
      ∧ (0x21#8 ≠ 0x11#8 ∧ ¬stationed.link.named ⟨3, 16⟩ ∧ stationed.FramesFiled)
      ∧ ((∀ l, ¬((State.reset.geometry l).loaded = true ∧ (State.reset.geometry l).scanSource = ⟨9, 9⟩))
        ∧ 4 ≤ { State.reset.link with fifo := [[0], [0], [0], [0]] }.fifo.length) := by
  refine ⟨by decide +kernel, by decide +kernel, by decide +kernel, ⟨by decide, trivial, idle_reset.filed⟩, by decide,
    ⟨by decide, by unfold stationed Link.named; decide, Idle.filed ⟨rfl, rfl⟩⟩, fun l => ?_, by decide⟩
  cases l <;> decide

/-- The part at power-on with a full command queue. -/
def crowded : State := { State.reset with interp := ⟨List.replicate 4 (asked 3 []), none⟩, reports := { State.reset.reports with reserved := 4 } }

theorem witness_CommandFramesAreAcceptedOrRefused :
    (State.reset.FramesFiled ∧ State.reset.link.named ⟨9, 9⟩ ∧ [(3 : Byte)].length < 2)
      ∧ (State.reset.interp.queue.length < 4 ∧ State.reset.reports.queued.length + State.reset.reports.reserved < 32)
      ∧ (crowded.FramesFiled ∧ 4 ≤ crowded.interp.queue.length ∧ crowded.reports.queued.length + crowded.reports.reserved < 32)
      ∧ (let s := { crowded with reports := { crowded.reports with reserved := 32 } }
        s.FramesFiled ∧ ¬s.reports.queued.length + s.reports.reserved < 32)
      ∧ (¬State.reset.link.wild ⟨0xFF, 0xFF⟩ ∧ stationed.link.wild ⟨0xFF, 17⟩ ∧ stationed.link.named ⟨0xFF, 17⟩
        ∧ stationed.FreeLinkIsIdle) := by
  refine ⟨⟨idle_reset.filed, trivial, by decide⟩, by decide, ⟨Idle.filed ⟨rfl, rfl⟩, by decide⟩, ⟨Idle.filed ⟨rfl, rfl⟩, by decide⟩, ?_⟩
  refine ⟨not_false, by unfold stationed Link.wild; decide, by unfold stationed Link.named; decide, fun _ => ⟨fun l => ?_, rfl, rfl⟩⟩
  cases l <;> rfl

theorem witness_ActStatusReachesHeadOrLane :
    (State.reset.FramesFiled ∧ State.reset.link.named ⟨9, 9⟩ ∧ false = (State.reset.head .b .t).fault
        ∧ true ≠ (State.reset.head .b .t).fault)
      ∧ ((State.reset.lane .b).state = .stopped)
      ∧ (((plant (lane 0 .armed [])).lane .a).state = .running ∧ (plant (lane 0 .armed [])).FramesFiled
        ∧ ¬(plant (lane 0 .armed [])).link.wild ⟨9, 9⟩ ∧ (plant (lane 0 .armed [])).Slots 2)
      ∧ ¬([(2 : Byte), 0, 0].length = 3 ∧ (([(2 : Byte), 0, 0] : List Byte).getD 0 0).toNat ≤ 1)
      ∧ (let s := { plant (lane 0 .armed []) with link := stationed.link }
        let full := { s with link := { s.link with fifo := List.replicate 4 [0], sending := some (.passed [0]) } }
        s.link.named ⟨0xFF, 17⟩ ∧ s.link.wild ⟨0xFF, 17⟩ ∧ s.FreeLinkIsIdle ∧ s.link.fifo.length < 4
          ∧ full.FreeLinkIsIdle ∧ 4 ≤ full.link.fifo.length ∧ full.FramesFiled ∧ full.Slots 2) := by
  refine ⟨⟨idle_reset.filed, trivial, by decide, by decide⟩, by decide,
    ⟨by decide, (idle_plant _).filed, not_false, (idle_plant _).slots (by decide)⟩, by decide, ?_⟩
  refine ⟨by unfold stationed Link.named; decide, by unfold stationed Link.wild; decide, fun _ => ⟨fun l => ?_, rfl, rfl⟩, by decide,
    nofun, by decide, Idle.filed ⟨rfl, rfl⟩, Idle.slots ⟨rfl, rfl⟩ (by decide)⟩
  cases l <;> rfl

/-- A FEED frame of a lane. -/
def feedFrame (l : Lane) : OutFrame := ⟨⟨0, 0⟩, ⟨0, 0⟩, .act l (.feed .hold)⟩

/-- A response frame. -/
def responseFrame : OutFrame := ⟨⟨1, 1⟩, ⟨0, 0⟩, .response 3 5 .done []⟩

theorem witness_TransmissionEndGrantsByRule :
    let busy := { State.reset.link with sending := some (.passed []) }
    ({ busy with act := ⟨[feedFrame .a], [feedFrame .b]⟩ }.act.get .a = [feedFrame .a] ∧ busy.lastAct = otherLane .a)
      ∧ ({ busy with act := ⟨[], [feedFrame .b]⟩ }.act.get .b = [feedFrame .b]
        ∧ { busy with act := ⟨[], [feedFrame .b]⟩ }.act.get (otherLane .b) = [])
      ∧ (busy.act = ⟨[], []⟩ ∧ { busy with fifo := [[1]] }.fifo = [1] :: [] ∧ busy.lastGrant = .report)
      ∧ ({ State.reset.reports with queued := [responseFrame] }.queued = responseFrame :: [] ∧ busy.fifo = []
        ∧ { busy with lastGrant := .pass, fifo := [[1]] }.lastGrant = .pass)
      ∧ (busy.fifo = [] ∧ State.reset.reports.queued = [] ∧ busy.sending = some (.passed [])) := by decide

/-- A lane whose ACT queue is full while the link sends. -/
def overrun (a : LaneS) : State :=
  { plant a with link := { State.reset.link with act := ⟨List.replicate 8 (feedFrame .a), []⟩, sending := some (.passed []) } }

theorem overrun_filed (a : LaneS) : (overrun a).FramesFiled :=
  ⟨fun l f hf => by cases l <;> simp_all [overrun, PerLane.get, feedFrame, OutFrame.forLane], fun f hf => by simp [overrun, plant, State.reset] at hf⟩

theorem witness_FullActQueueLosesFrameAndJams :
    (State.reset.FramesFiled ∧ (State.reset.link.act.get .a).length < 8)
      ∧ ((overrun (lane 0 .armed [])).FramesFiled ∧ 8 ≤ ((overrun (lane 0 .armed [])).link.act.get .a).length
        ∧ ((overrun (lane 0 .armed [])).lane .a).active = true ∧ (overrun (lane 0 .armed [])).Slots 2)
      ∧ ((∀ r, ActMsg.safe ≠ .feed r) ∧ ActMsg.feed .hold = .feed .hold)
      ∧ (8 ≤ ((overrun LaneS.initial).link.act.get .a).length ∧ ((overrun LaneS.initial).lane .a).active = false)
      ∧ ((overrun (lane 0 .armed [])).lane .a).state ≠ .jammed :=
  ⟨⟨idle_reset.filed, by decide⟩, ⟨overrun_filed _, by decide, by decide, by unfold State.Slots; decide⟩, ⟨nofun, rfl⟩, by decide, by decide⟩

/-! ### Witnesses: the belt and the eye -/

theorem witness_BeltStepMovesBeltByHalfRange :
    let s := plant { lane 49 .armed [] with forwardMark := some 98 }
    let t := plant { lane 49 .armed [] with forwardMark := some 99 }
    (∀ m, (s.lane .a).forwardMark = some m → (m - ((s.lane .a).belt - 1)).toNat ≤ (s.geometry .a).reverseLimit)
      ∧ (State.reset.lane .a).active = false
      ∧ ((t.lane .a).forwardMark = some 99 ∧ (t.geometry .a).reverseLimit < ((99 : Pos) - ((t.lane .a).belt - 1)).toNat
        ∧ (t.lane .a).active = true ∧ t.FramesFiled ∧ t.Slots 2)
      ∧ reached 16777215 0 = false ∧ reached (16777215 + 1) 0 = true :=
  ⟨fun m h => by cases h; decide, by decide, ⟨by decide, by decide, by decide, (idle_plant _).filed, (idle_plant _).slots (by decide)⟩,
    by decide⟩

theorem witness_LeadingEdgeCapturesReopensOrPasses :
    let armed := plant (lane 200000 .armed [fresh 39 199000])
    let held := fun p c => plant (lane 200080 (.gapHold 200100 c) [p])
    ((plant { lane 0 .armed [] with eyeCovered := true }).lane .a).eyeCovered = true
      ∧ ((State.reset.lane .a).eyeCovered = false ∧ (State.reset.lane .a).eye = .idle)
      ∧ (((plant { lane 5 .armed [] with state := .draining }).lane .a).eye = .armed
        ∧ ((plant { lane 5 .armed [] with state := .draining }).lane .a).state = .draining)
      ∧ (24 ≤ ((plant (lane 0 .armed (List.replicate 24 (fresh 0 0)))).lane .a).list.length)
      ∧ ((armed.lane .a).eye = .armed ∧ (armed.lane .a).state = .running ∧ (armed.lane .a).list.length < 24
        ∧ (∀ p, (armed.lane .a).list.getLast? = some p → beyond (armed.lane .a).belt p.lead = true) ∧ armed.Room .a 0 1)
      ∧ ((held (fresh 39 199000) false).lane .a).eye = .gapHold 200100 false
      ∧ ((held (decided 39 199000 false) true).newest? .a = some (decided 39 199000 false)
        ∧ (decided 39 199000 false).decisionTaken = true)
      ∧ ((held (fresh 39 199000) true).newest? .a = some (fresh 39 199000) ∧ (fresh 39 199000).decisionTaken = false) :=
  ⟨rfl, ⟨rfl, rfl⟩, ⟨rfl, rfl⟩, by decide, ⟨rfl, rfl, by decide, fun p h => by cases h; decide, (idle_plant _).room _ (by decide) (by decide)⟩,
    rfl, ⟨rfl, rfl⟩, rfl, rfl⟩

theorem witness_TrailingEdgeStoresLengthOrRetiresGlitch :
    let at' := fun (belt : Pos) (eye : Eye) (p : Piece) => plant { lane belt eye [p] with eyeCovered := true }
    let glitch := at' 200499 (.covered 200000) (fresh 39 200000)
    let piece := at' 200500 (.covered 200000) (fresh 39 200000)
    let long := at' 201251 (.covered 200000) (fresh 39 200000)
    let full := plant { lane 200900 (.covered 200000) [fresh 39 200000] with
      eyeCovered := true, highMarks := ⟨some 200898, some 200898, some 200898, some 200898⟩ }
    (State.reset.lane .a).eyeCovered = false
      ∧ (plant { LaneS.initial with eyeCovered := true }).lanes.a.eye = .idle
      ∧ ((at' 5 (.passing 0) (fresh 39 0)).lane .a).eye = .passing 0
      ∧ ((glitch.lane .a).eyeCovered = true ∧ (glitch.lane .a).eye = .covered 200000 ∧ glitch.newest? .a = some (fresh 39 200000)
        ∧ signedDistance (glitch.lane .a).belt (fresh 39 200000).lead < (glitch.geometry .a).minLen
        ∧ (fresh 39 200000).shingled = false ∧ (fresh 39 200000).decisionTaken = false ∧ (fresh 39 200000).pocket = none
        ∧ glitch.Room .a 2 1)
      ∧ ((piece.lane .a).TagsDistinct
        ∧ ((piece.geometry .a).minLen : Int) ≤ signedDistance (piece.lane .a).belt (fresh 39 200000).lead)
      ∧ (((long.geometry .a).maxLen : Int) < signedDistance (long.lane .a).belt (fresh 39 200000).lead)
      ∧ ((fresh 39 200000).scan = .collecting
        ∧ ∀ b, ∃ h, (full.lane .a).highMarks.get b = some h ∧ reached h ((fresh 39 200000).lead + BitVec.ofNat 24 900 - 2) = true) :=
  ⟨rfl, rfl, rfl, ⟨rfl, rfl, rfl, by decide, rfl, rfl, rfl, (idle_plant _).room _ (by decide) (by decide)⟩,
    ⟨by simp [LaneS.TagsDistinct, plant, lane, State.lane, PerLane.get], by decide⟩, by decide, rfl,
    fun b => by cases b <;> exact ⟨200898, rfl, by decide⟩⟩

theorem witness_EyeLimitsArmOrJam :
    let held := plant (lane 200100 (.gapHold 200100 true) [])
    let early := plant (lane 200099 (.gapHold 200100 true) [])
    let blocked := plant (lane 203001 (.covered 200000) [fresh 39 200000])
    let passing := plant (lane 203000 (.passing 200000) [])
    ((held.lane .a).active = true ∧ reached (held.lane .a).belt 200100 = true)
      ∧ reached (early.lane .a).belt 200100 = false
      ∧ ((blocked.lane .a).eye = .covered 200000 ∧ (blocked.lane .a).active = true
        ∧ reached (blocked.lane .a).belt ((200000 : Pos) + BitVec.ofNat 24 ((blocked.geometry .a).maxCovered + 1)) = true
        ∧ blocked.FramesFiled ∧ blocked.Slots 2)
      ∧ ((passing.lane .a).eye = .passing 200000
        ∧ reached (passing.lane .a).belt ((200000 : Pos) + BitVec.ofNat 24 ((passing.geometry .a).maxCovered + 1)) = false) :=
  ⟨by decide, by decide, ⟨rfl, by decide, by decide, (idle_plant _).filed, (idle_plant _).slots (by decide)⟩, rfl, by decide⟩

/-! ### Witnesses: scans, slots and samples -/

theorem witness_ScansAskAndAreWithdrawn :
    let long := plant (lane 201251 (.covered 200000) [fresh 39 200000])
    let p := { fresh 39 200000 with length := some 900, sampleWaitDue := true }
    let waited := fun (q : Piece) => plant (lane 200960 .armed [q])
    ((long.piece? .a 39 = some (fresh 39 200000) ∧ (long.lane .a).active = true ∧ (long.lane .a).eye = .covered 200000
        ∧ long.newest? .a = some (fresh 39 200000) ∧ (fresh 39 200000).overlengthTaken = false
        ∧ reached (long.lane .a).belt ((200000 : Pos) + BitVec.ofNat 24 ((long.geometry .a).maxLen + 1)) = true)
      ∧ ((waited p).piece? .a 39 = some p ∧ p.length = some 900 ∧ p.sampleWaitDue = true ∧ p.scan = .collecting
        ∧ reached ((waited p).lane .a).belt
          (p.lead + BitVec.ofNat 24 900 + BitVec.ofNat 24 ((waited p).geometry .a).sampleWait) = true)
      ∧ ((waited { p with scan := .slotWait }).piece? .a 39 = some { p with scan := .slotWait } ∧ ScanState.slotWait ≠ .collecting))
      ∧ ∀ x ∈ [ScanState.collecting, .slotWait, .queued, .scoring, .scored, .failed .late],
        (plant (lane 0 .armed [{ fresh 39 0 with scan := x }])).piece? .a 39 = some { fresh 39 0 with scan := x } := by
  decide

/-- A scan job of a lane's record. -/
def job (l : Lane) (tag : Tag) : Job :=
  { lane := l, tag := tag, lead := 200000, length := 900, m := 8, windows := ⟨List.replicate 8 (some ⟨0, 0⟩), [], [], []⟩
    refs := ⟨⟨0, 0⟩, ⟨0, 0⟩, ⟨0, 0⟩, ⟨0, 0⟩⟩ }

theorem witness_SlotsAreGrantedInTheOrderAsked :
    let p := { fresh 39 200000 with length := some 900 }
    let s := plant (lane 200960 .armed [p])
    let full := { s with scorer := { s.scorer with queues := ⟨List.replicate 8 (job .a 1), []⟩ } }
    8 ≤ full.slotsHeld ∧ s.slotsHeld < 8 ∧ s.scan.waitList = []
      ∧ { s.scan with waitList := [(Lane.a, (39 : Tag))] }.waitList = (.a, 39) :: []
      ∧ s.piece? .a 39 = some p ∧ p.length = some 900 := by
  decide

theorem witness_SampleFramesAreTakenInPayloadOrder :
    let s := plant (lane 200000 .armed [])
    let xs := List.replicate 60 (Sample.mk 65535 65535)
    let p := [3] ++ posBytes 199000 ++ [byte xs.length] ++ (xs.flatMap fun x => beBytes 2 x.ph ++ beBytes 2 x.fl)
    ((s.geometry .a).loaded = true ∧ (s.geometry .a).scanSource = ⟨9, 9⟩ ∧ p.length ≤ 255 ∧ bandOf 3 = some .bBottom
        ∧ 1 ≤ xs.length ∧ xs.length ≤ 60 ∧ (∀ x ∈ xs, x.ph < 65536 ∧ x.fl < 65536)
        ∧ ¬((s.geometry (otherLane .a)).loaded = true ∧ (s.geometry (otherLane .a)).scanSource = ⟨9, 9⟩)
        ∧ (s.lane .a).active = true)
      ∧ ((plant LaneS.initial).lane .a).active = false
      ∧ (let both := { s with store := { s.store with tables := { s.store.tables with
          geometry := ⟨exampleGeometry ⟨9, 9⟩, exampleGeometry ⟨9, 9⟩⟩ } } }
        (both.geometry (otherLane .a)).loaded = true ∧ (both.geometry (otherLane .a)).scanSource = ⟨9, 9⟩)
      ∧ ¬(∃ n, 1 ≤ n ∧ n ≤ 60 ∧ (zeros 9).length = 5 + 4 * n ∧ ((zeros 9).getD 4 0).toNat = n ∧ ((zeros 9).getD 0 0).toNat ≤ 3) :=
  ⟨by decide +kernel, by decide, by decide, fun ⟨n, h1, _, _, h4, _⟩ => by simp [zeros] at h4; omega⟩

theorem witness_SampleIsFiledAndMovesReferences :
    let s := plant (lane 200000 .armed [fresh 39 199000])
    (2048 < signedDistance 202049 (s.lane .a).belt ∧ signedDistance 202048 (s.lane .a).belt ≤ 2048
        ∧ ((198960 : Pos) - ((fresh 39 199000).lead - BitVec.ofNat 24 (s.geometry .a).refGuard)).toNat < 8388608
        ∧ ¬((198959 : Pos) - ((fresh 39 199000).lead - BitVec.ofNat 24 (s.geometry .a).refGuard)).toNat < 8388608)
      ∧ Ring.canonical [(3, ⟨6, ⟨1, 2⟩⟩), (1023, ⟨2046, ⟨1, 2⟩⟩)]
      ∧ Ring.read [(1023, ⟨2046, ⟨1, 2⟩⟩)] ((4095 : Pos).toNat / 2 % 1024) = some ⟨2046, ⟨1, 2⟩⟩
      ∧ Ring.read [] ((4095 : Pos).toNat / 2 % 1024) = none :=
  ⟨by decide, ⟨by decide, by decide⟩, by decide, by decide⟩

/-! ### Witnesses: decisions, strikes, pockets, retirements -/

theorem witness_BookingCheckTakesFirstCase :
    let s := plant (lane 200000 .armed [])
    let x := s.head .a .l
    ({ x with fault := true }.fault = true ∧ x.fault = false)
      ∧ ¬(State.reset.store.tables.dieCommon.loaded = true ∧ State.reset.date.isSome = true)
      ∧ (s.store.tables.dieCommon.loaded = true ∧ s.date.isSome = true)
      ∧ ¬((State.reset.head .a .l).ink = false)
      ∧ (x.ink = false ∧ (s.dieHead .a .l).inkCost + x.reserved ≤ x.units ∧ x.booking.length < 4)
      ∧ ((703201 : Pos) - 703201).toNat < 8388608 ∧ 8388608 ≤ ((703200 : Pos) - 703201).toNat := by
  decide

/-- A lane at the decision point of a record. -/
def atDecision (gate : Gate) (pocket : PocketState) (p : Piece) : State :=
  plant { lane 201500 .armed [decided 39 198000 false, p] with
    gate := gate, pockets := Vector.replicate 10 { Pocket.initial with state := pocket } }

theorem atDecision_deciding (gate : Gate) (k : PocketState) (p : Piece) (hp : p.tag = 40) (hl : p.lead = 200000)
    (hd : p.decisionTaken = false) : Deciding (atDecision gate k p) .a p where
  here := by simp [State.piece?, atDecision, plant, lane, State.lane, PerLane.get, decided, scored, fresh, hp]
  distinct := by simp [atDecision, plant, lane, State.lane, PerLane.get, decided, scored, fresh, hp]
  active := rfl
  untaken := hd
  older := by simp [atDecision, plant, lane, State.lane, PerLane.get, decided, scored, fresh, hp]
  reached := by
    rw [hl]
    show Machine.reached 201500 (200000 + BitVec.ofNat 24 1500) = true
    decide

theorem witness_DecisionRejectsByFirstCheck_extent :
    (scored 40 200000 .noMark).length = some 900 ∧ (fresh 40 200000).length = none := ⟨rfl, rfl⟩

theorem witness_DecisionRejectsByFirstCheck :
    let pass := fun (p : Piece) => atDecision ⟨.pass, 0⟩ .opened p
    let long := { fresh 40 200000 with overlength := true }
    let late := fresh 40 200000
    let blank := scored 40 200000 .noMark
    let faced := scored 40 200000 (.hit stampHit)
    let turned := atDecision ⟨.flip, 202001⟩ .opened faced
    let swept := atDecision ⟨.pass, 0⟩ .sweep faced
    (Deciding (pass long) .a long ∧ (pass long).rejectedBy .a long .rejectDouble ∧ (pass long).Room .a 0 1)
      ∧ (Deciding (pass late) .a late ∧ (pass late).rejectedBy .a late .rejectLate)
      ∧ (Deciding (pass blank) .a blank ∧ (pass blank).rejectedBy .a blank .rejectNomark)
      ∧ (Deciding turned .a faced ∧ turned.rejectedBy .a faced .rejectGate)
      ∧ (Deciding swept .a faced ∧ swept.rejectedBy .a faced .rejectPocket) := by
  refine ⟨⟨atDecision_deciding _ _ _ rfl rfl rfl, .inr rfl, (idle_plant _).room _ (by decide) (by decide)⟩,
    ⟨atDecision_deciding _ _ _ rfl rfl rfl, rfl, rfl, by decide⟩,
    ⟨atDecision_deciding _ _ _ rfl rfl rfl, found .noMark, ⟨rfl, rfl, rfl, rfl⟩, rfl⟩,
    ⟨atDecision_deciding _ _ _ rfl rfl rfl, found _, stampHit, ⟨rfl, rfl, rfl, rfl⟩, rfl, ?_⟩,
    ⟨atDecision_deciding _ _ _ rfl rfl rfl, found _, stampHit, ⟨rfl, rfl, rfl, rfl⟩, rfl, .inl rfl, fun k _ h => ?_⟩⟩
  · unfold State.gateServes
    decide
  · have hs : ((atDecision ⟨.pass, 0⟩ .sweep (scored 40 200000 (.hit stampHit))).pocket .a k).state = .sweep := by clear h; fin_cases k <;> rfl
    obtain h | h := h <;> (rw [hs] at h; exact absurd h.1 (by decide))

theorem witness_DecisionCommitsFacedPiece :
    let p := scored 40 200000 (.hit stampHit)
    let s := atDecision ⟨.flip, 202000⟩ .opened p
    Deciding s .a p ∧ p.Scored (found (.hit stampHit)) ∧ s.gateServes .a p .c3
      ∧ (∃ k ∈ (s.stackerMap .a).list (wantedStream .c3) (s.facing .a p (found (.hit stampHit)) stampHit).1, s.selectable .a k)
      ∧ s.Room .a 0 3 := by
  refine ⟨atDecision_deciding _ _ _ rfl rfl rfl, ⟨rfl, rfl, rfl, rfl⟩, .inr (by decide), ⟨0, by decide, .inl (by decide)⟩,
    (idle_plant _).room _ (by decide) (by decide)⟩

/-- A booked strike. -/
def strike (started : Bool) : Strike :=
  { tag := 39, start := 202000, stop := 202400, cost := 1, started := started
    die := { officeCode := [], officeName := [], lineNumber := 0, date := ⟨2026, 7, 1, 9⟩, text := [] } }

/-- A running lane with a strike booked on head L. -/
def striking (belt : Pos) (started fault : Bool) : State :=
  plant { lane belt .armed [decided 39 199400 false] with
    heads := ⟨{ Head.initial with booking := [strike started], units := 5, reserved := 1, ink := false, fault := fault }, .initial⟩ }

theorem witness_StrikesFireOrAreSuppressed :
    ((((striking 202000 false false).head .a .l).strike? 39 = some (strike false) ∧ ((striking 202000 false false).lane .a).active = true
        ∧ reached ((striking 202000 false false).lane .a).belt (strike false).start = true
        ∧ ((striking 202000 false false).head .a .l).fault = false)
      ∧ (striking 202000 false false).FramesFiled ∧ (striking 202000 false false).Slots 2)
      ∧ ((striking 202000 false true).head .a .l).fault = true
      ∧ (((striking 202400 true false).head .a .l).strike? 39 = some (strike true) ∧ (strike true).started = true
        ∧ reached ((striking 202400 true false).lane .a).belt (strike true).stop = true) :=
  ⟨⟨by decide, (idle_plant _).filed, (idle_plant _).slots (by decide)⟩, by decide, by decide⟩

theorem witness_PocketPointChoosesOrJams :
    let p := decided 40 200000 false
    let s := plant (lane 204600 .armed [p])
    let none' := { s with store := State.reset.store }
    (s.piece? .a 40 = some p ∧ (s.lane .a).active = true ∧ p.decisionTaken = true ∧ p.pocketTaken = false
        ∧ (∀ h, (s.head .a h).booking = [])
        ∧ reached (s.lane .a).belt (p.lead + BitVec.ofNat 24 (s.geometry .a).dPocket) = true
        ∧ p.stream = some .l ∧ Stream.l ≠ .x ∧ p.finding = some (found (.hit stampHit)) ∧ p.cancel ≠ .struck
        ∧ (found (.hit stampHit)).precancel = false)
      ∧ ((s.stackerMap .a).list .l .hand = [] ++ 0 :: [] ∧ (s.pocket .a 0).state = .opened
        ∧ (s.pocket .a 0).count + (s.pocket .a 0).inbound < ((s.stackerMap .a).levels.get 0).fullLevel ∧ s.Room .a 1 1)
      ∧ ((none'.stackerMap .a).list .l .hand = [] ∧ none'.FramesFiled ∧ none'.Slots 2) :=
  ⟨⟨rfl, rfl, rfl, rfl, fun h => by cases h <;> rfl, by decide, rfl, by decide, rfl, by decide, rfl⟩,
    ⟨by decide, by decide, by decide, (idle_plant _).room _ (by decide) (by decide)⟩,
    by decide, Idle.filed ⟨rfl, rfl⟩, Idle.slots ⟨rfl, rfl⟩ (by decide)⟩

theorem witness_RetirementHandsRecordOff :
    let p := { decided 40 200000 true with pocket := some 0 }
    let s := plant (lane 206100 .armed [p])
    s.piece? .a 40 = some p ∧ (s.lane .a).active = true ∧ p.length = some 900 ∧ p.disposition = some .facedHand
      ∧ p.decisionTaken = true ∧ p.pocketTaken = true
      ∧ reached (s.lane .a).belt (p.lead + BitVec.ofNat 24 900 + BitVec.ofNat 24 (s.geometry .a).dStack) = true ∧ s.Room .a 2 1 :=
  ⟨rfl, rfl, rfl, rfl, rfl, rfl, by decide, (idle_plant _).room _ (by decide) (by decide)⟩

theorem witness_WindowEndJudgesMonitors :
    let due := plant { lane 920000 .armed [] with window := some (window 920000) }
    let early := plant { lane 919999 .armed [] with window := some (window 920000) }
    ((due.lane .a).window = some (window 920000) ∧ (due.lane .a).active = true
        ∧ reached (due.lane .a).belt (window 920000).stop = true ∧ due.Room .a 4 1)
      ∧ ((early.lane .a).window = some (window 920000) ∧ reached (early.lane .a).belt (window 920000).stop = false)
      ∧ (let e : MonitorEntry := ⟨true, 2, 2, 3⟩
        (⟨false, 1, 0⟩ : Monitor).declared = false ∧ e.declareN ≤ min ((1 : Nat) + 1) 15 ∧ min ((0 : Nat) + 1) 15 < e.declareN
          ∧ (⟨true, 0, 2⟩ : Monitor).declared = true ∧ e.clearM ≤ min ((2 : Nat) + 1) 15 ∧ min ((1 : Nat) + 1) 15 < e.clearM)
      ∧ (let e : MonitorEntry := ⟨true, 2, 1, 1⟩
        (MonitorEntry.initial.enable = false ∧ e.enable = true) ∧ (Monitor.clear.judge e false).declared = Monitor.clear.declared
          ∧ (Monitor.clear.judge e true).declared ≠ Monitor.clear.declared) :=
  ⟨⟨rfl, rfl, by decide, (idle_plant _).room _ (by decide) (by decide)⟩, ⟨rfl, by decide⟩, by decide, by decide⟩

/-! ### Witnesses: scoring -/

theorem witness_CornerResultsFollowTheExcesses :
    let w := [some (Sample.mk 0 0), some ⟨500, 0⟩, some ⟨500, 0⟩]
    let r := scoreChannel ⟨40, 60, 200, 150⟩ 3 ⟨100, 100⟩ w .ph
    r.run = 2 ∧ r.first = 2 ∧ (scoreChannel ⟨40, 60, 200, 150⟩ 3 ⟨100, 100⟩ [none] .ph).run = 0
      ∧ ∀ i, 2 ≤ i → i < 2 + 2 → ∃ x, w[i - 1]? = some (some x) ∧ 1 ≤ i ∧ 200 ≤ x.ph - (100 + 40) :=
  ⟨by decide, by decide, by decide, fun i h1 h2 => by
    obtain rfl | rfl : i = 2 ∨ i = 3 := by omega
    all_goals exact ⟨⟨500, 0⟩, rfl, by decide, by decide⟩⟩

/-- Results of a corner with a hit on profile 0 at a score. -/
def cornerAt (score : Nat) : CornerResult := ⟨⟨score, 30, 11, 0⟩, ⟨0, 0, 0, 0⟩, false, some 0⟩

/-- Results of a corner that is void or has no hit. -/
def cornerWithout (isVoid : Bool) : CornerResult := ⟨⟨0, 0, 0, 9⟩, ⟨0, 0, 0, 9⟩, isVoid, none⟩

theorem witness_FindingFollowsTheSixCases :
    let none' := cornerWithout true
    let blank := cornerWithout false
    let two := fun n => cornerHits tables ⟨cornerAt n, blank, cornerAt 11520, blank⟩
    (∀ c, ((⟨none', none', none', none'⟩ : PerCorner CornerResult).get c).isVoid = true)
      ∧ (¬(∀ c, ((⟨none', blank, none', none'⟩ : PerCorner CornerResult).get c).isVoid = true)
        ∧ cornerHits tables ⟨none', blank, none', none'⟩ = [])
      ∧ (∃ h ∈ two 5760, h.corner = .c3 ∧ ∀ k ∈ two 5760, k.corner ≠ h.corner → k.score < h.score ∧ 2 * k.score ≤ h.score)
      ∧ (∀ h ∈ two 5761, ∃ k ∈ two 5761, k.corner ≠ h.corner ∧ (h.score ≤ k.score ∨ h.score < 2 * k.score))
      ∧ ((tables.profiles.get 0).kind = .stamp ∧ ({ Profile.initial with kind := .meter }).kind ≠ .stamp
        ∧ (∀ e ∈ tables.signature, e.key.profile ≠ 0))
      ∧ (let e : SigEntry := ⟨⟨0, 3, 11⟩, 12, 55, false⟩
        ∀ e' ∈ [e], e'.key.profile = 0 ∧ e'.key.width.val = min (30 / 8) 31 ∧ e'.key.band.val = min (11520 / 1024) 63 ∧ e' = e) := by
  refine ⟨fun c => by cases c <;> rfl, ⟨fun h => absurd (h .c2) (by decide), by decide⟩, by decide, by decide, by decide, by decide⟩

theorem witness_ScoringCompleteWritesOrDiscards :
    let p := { fresh 39 200000 with length := some 900, scan := .scoring }
    let s := { plant (lane 201000 .armed [p]) with scorer := ⟨⟨[], []⟩, some (job .a 39), .a⟩ }
    let audited := { s with scan := { s.scan with auditInterval := 1 } }
    (s.scorer.engine = some (job .a 39) ∧ s.piece? .a 39 = some p ∧ p.scan = .scoring ∧ s.scan.auditInterval = 0)
      ∧ ((job .a 99).tag = 99 ∧ s.piece? .a 99 = none)
      ∧ (0 < audited.scan.auditInterval ∧ audited.scan.auditInterval ≤ (audited.lane .a).auditCounter + 1
        ∧ audited.scan.auditStore = none)
      ∧ (s.lane .a).auditCounter + 1 < { s.scan with auditInterval := 2 }.auditInterval
      ∧ { s.scan with auditStore := some capture }.auditStore ≠ none := by
  refine ⟨⟨rfl, rfl, rfl, rfl⟩, ⟨rfl, rfl⟩, ⟨by decide, by decide, rfl⟩, by decide, nofun⟩

theorem witness_InterpreterAndEngineTakeTheHead :
    let s := { State.reset with scorer := ⟨⟨[job .a 1], [job .b 1]⟩, none, .b⟩ }
    ((crowded.interp.executing = none ∧ crowded.interp.queue = asked 3 [] :: List.replicate 3 (asked 3 []))
        ∧ State.reset.interp.queue = [])
      ∧ (s.scorer.engine = none ∧ s.scorer.queues.get .a = job .a 1 :: [] ∧ s.scorer.lastServed = otherLane .a)
      ∧ State.reset.scorer.queues = ⟨[], []⟩ :=
  ⟨⟨⟨rfl, rfl⟩, rfl⟩, ⟨rfl, rfl, rfl⟩, rfl⟩

/-! ### Witnesses: lane, head, pocket and count commands -/

/-- A stopped lane at a belt position. -/
def stoppedLane : LaneS := { LaneS.initial with belt := 200000 }

theorem witness_LaneStartStartsOrResumes :
    let at' := fun (st : LaneState) => ask (plant { stoppedLane with state := st }) 0x10 [0]
    (Executing (at' .stopped) 0x10 (asked 0x10 [0]) ∧ (asked 0x10 [0]).args = [byte (laneNat .a)])
      ∧ (∀ st, Executing (at' st) 0x10 (asked 0x10 [0]) ∧ ((at' st).lane .a).state = st)
      ∧ ¬((ask State.reset 0x10 [0]).geometry .a).loaded = true
      ∧ (((at' .stopped).geometry .a).loaded = true ∧ (∃ n, ((at' .stopped).store.tables.profiles.get n).enable = true)
        ∧ .ink ∉ (at' .stopped).store.phase.writes ∧ .geometry ∉ (at' .stopped).store.phase.writes)
      ∧ ((at' .draining).Slots 1 ∧ (at' .draining).Places .a 1 ∧ (at' .stopped).Slots 1 ∧ (at' .stopped).Places .a 1) :=
  ⟨⟨(idle_plant _).executing _ _, rfl⟩, fun _ => ⟨(idle_plant _).executing _ _, rfl⟩, by decide, ⟨rfl, ⟨0, rfl⟩, by decide, by decide⟩,
    Idle.slots ⟨rfl, rfl⟩ (by decide), Idle.places ⟨rfl, rfl⟩ _ (by decide), Idle.slots ⟨rfl, rfl⟩ (by decide),
    Idle.places ⟨rfl, rfl⟩ _ (by decide)⟩

theorem witness_LaneStopDrainsTheLane :
    let s := ask (plant (lane 200000 .armed [])) 0x11 [0]
    (Executing s 0x11 (asked 0x11 [0]) ∧ (s.lane .a).state = .running ∧ s.Slots 3 ∧ s.Places .a 1)
      ∧ Executing (ask State.reset 0x11 [0]) 0x11 (asked 0x11 [0]) ∧ ((ask State.reset 0x11 [0]).lane .a).state ≠ .running :=
  ⟨⟨(idle_plant _).executing _ _, rfl, Idle.slots ⟨rfl, rfl⟩ (by decide), Idle.places ⟨rfl, rfl⟩ _ (by decide)⟩,
    idle_reset.executing _ _, by decide⟩

theorem witness_JamClearRetiresTheList :
    let s := ask (plant { LaneS.initial with
      state := .jammed, list := [{ decided 39 199000 true with pocket := some 0 }, fresh 40 200000]
      pockets := LaneS.initial.pockets.set 0 { Pocket.initial with inbound := 1 } }) 0x12 [0]
    (Executing s 0x12 (asked 0x12 [0]) ∧ (s.lane .a).state = .jammed ∧ (s.lane .a).InboundRight
        ∧ (∀ h, (s.head .a h).booking = []) ∧ s.Slots 25 ∧ (s.lane .a).list.length ≤ 24)
      ∧ ((ask State.reset 0x12 [0]).lane .a).state ≠ .jammed := by
  refine ⟨⟨(idle_plant _).executing _ _, rfl, ?_, fun h => by cases h <;> rfl, Idle.slots ⟨rfl, rfl⟩ (by decide), by decide⟩, by decide⟩
  intro k
  revert k
  decide

theorem witness_InkAndDateCommandsReplace :
    (Executing (ask State.reset 0x20 ([1, 1] ++ beBytes 3 1000000)) 0x20 (asked 0x20 ([1, 1] ++ beBytes 3 1000000))
        ∧ ((ask State.reset 0x20 []).head .b .t).reserved ≤ 1000000)
      ∧ (Executing (ask (striking 0 false false) 0x20 ([0, 0] ++ beBytes 3 0)) 0x20 (asked 0x20 ([0, 0] ++ beBytes 3 0))
        ∧ 0 < ((ask (striking 0 false false) 0x20 []).head .a .l).reserved)
      ∧ (Executing (ask State.reset 0x21 (beBytes 2 2096 ++ [2, 29, 23])) 0x21 (asked 0x21 (beBytes 2 2096 ++ [2, 29, 23]))
        ∧ (asked 0x21 (beBytes 2 2096 ++ [2, 29, 23])).args = beBytes 2 2096 ++ [byte 2, byte 29, byte 23] ∧ 2096 % 4 = 0)
      ∧ (Executing (ask State.reset 0x21 (beBytes 2 2099 ++ [2, 29, 0])) 0x21 (asked 0x21 (beBytes 2 2099 ++ [2, 29, 0]))
        ∧ ¬((29 : Nat) ≤ 28 ∨ (29 : Nat) = 29 ∧ 2099 % 4 = 0)) :=
  ⟨⟨idle_reset.executing _ _, by decide⟩, ⟨(idle_plant _).executing _ _, by decide⟩, ⟨idle_reset.executing _ _, rfl, rfl⟩,
    idle_reset.executing _ _, by decide⟩

/-- A stopped lane whose pocket 9 has a state and records on their way. -/
def pocketed (st : PocketState) (inbound : Nat) : State :=
  plant { LaneS.initial with pockets := LaneS.initial.pockets.set 9 { Pocket.initial with state := st, inbound := inbound } }

theorem witness_SweepsCloseAndEmptyPockets :
    (∀ st n, Executing (ask (pocketed st n) 0x28 [0, 9]) 0x28 (asked 0x28 [0, 9])
        ∧ (asked 0x28 [0, 9]).args = [byte (laneNat .a), byte (9 : Fin 10).val] ∧ ((ask (pocketed st n) 0x28 [0, 9]).pocket .a 9).state = st
        ∧ ((ask (pocketed st n) 0x28 [0, 9]).pocket .a 9).inbound = n)
      ∧ ∀ st n, Executing (ask (pocketed st n) 0x29 [0, 9]) 0x29 (asked 0x29 [0, 9])
        ∧ ((ask (pocketed st n) 0x29 [0, 9]).pocket .a 9).state = st :=
  ⟨fun _ _ => ⟨(idle_plant _).executing _ _, rfl, rfl, rfl⟩, fun _ _ => ⟨(idle_plant _).executing _ _, rfl⟩⟩

theorem witness_CountSnapshotAnswersAndClears :
    (Executing (ask State.reset 0x30 [0, 1]) 0x30 (asked 0x30 [0, 1])
        ∧ (asked 0x30 [0, 1]).args = [byte (laneNat .a), byte (switchNat true)])
      ∧ (Executing (ask State.reset 0x30 [5, 0]) 0x30 (asked 0x30 [5, 0])
        ∧ (asked 0x30 [5, 0]).args = [byte (2 + (3 : Fin 4).val), byte (switchNat false)]) :=
  ⟨⟨idle_reset.executing _ _, rfl⟩, idle_reset.executing _ _, rfl⟩

/-! ### Witnesses: the Table Store -/

/-- A part at power-on with the Table Store in a state. -/
def storing (p : Phase) : State := { State.reset with store := { State.reset.store with phase := p } }

/-- A write of a signature that is being staged. -/
def staged (received : List (List Byte)) : Staged := { table := .signature, laneSet := .both, count := 1, received := received }

/-- A PUT of a signature as a fill carries it: key (0, 3, 11), category 12, value 55. -/
def putBytes : List Byte := [0, 0, 3, 11, 12, 0, 55, 0]

/-- The same PUT as it is read. -/
def putEntry : Entry := .put ⟨⟨0, 3, 11⟩, 12, 55, false⟩

/-- A write that is programming. -/
def write (todo : List Entry) : Programming :=
  { table := .signature, total := 1, applied := 0, todo := todo, commit := asked 0x3A [] }

theorem storing_executing (p : Phase) (code : Byte) (args : List Byte) :
    Executing (ask (storing p) code args) code (asked code args) := Idle.executing ⟨rfl, rfl⟩ _ _

theorem witness_TableOpenOpensOrRefuses :
    (∀ p, Executing (ask (storing p) 0x38 [2, 32, 3]) 0x38 (asked 0x38 [2, 32, 3]) ∧ (ask (storing p) 0x38 [2, 32, 3]).store.phase = p)
      ∧ (laneSetOf (byte 3) = some .both ∧ (asked 0x38 [2, 32, 3]).args = [byte Table.geometry.toNat, byte 32, byte 3])
      ∧ ((storing .ready).store.flags = 0 ∧ ¬{ State.reset.store with flags := 1 }.flags = 0)
      ∧ ((storing .ready).store.lockGeometry = false ∧ ¬{ State.reset.store with lockGeometry := true }.lockGeometry = false)
      ∧ (((storing .ready).lane .a).state = .stopped ∧ ((storing .ready).lane .b).state = .stopped
        ∧ ¬((plant (lane 0 .armed [])).lane .a).state = .stopped)
      ∧ (Table.geometry ≠ (write []).table ∧ Table.geometry ≠ .signature) :=
  ⟨fun _ => ⟨storing_executing _ _ _, rfl⟩, by decide, by decide, by decide, by decide, by decide⟩

theorem witness_TableFillAppendsEntries :
    let es := [(Table.signature, putBytes)]
    let fill := byte es.length :: es.flatMap fun e => byte e.1.toNat :: e.2
    (es.length < 256 ∧ (∀ e ∈ es, e.2.length + 1 = e.1.entrySize) ∧ 1 ≤ es.length ∧ es.length ≤ 8)
      ∧ (∀ p, Executing (ask (storing p) 0x39 fill) 0x39 (asked 0x39 fill) ∧ (ask (storing p) 0x39 fill).store.phase = p)
      ∧ ((∀ e ∈ es, e.1 = (staged []).table) ∧ (staged []).received.length + es.length ≤ (staged []).count
        ∧ (staged [putBytes]).count < (staged [putBytes]).received.length + es.length)
      ∧ (∃ e ∈ [(Table.monitor, zeros 5)], e.1 ≠ (staged []).table)
      ∧ (∀ args, Executing (ask State.reset 0x39 args) 0x39 (asked 0x39 args))
      ∧ ((0 : Byte).toNat = 0 ∧ 8 < (9 : Byte).toNat)
      ∧ (es.length = 1 ∧ [(7 : Byte)] ≠ [] ∧ fill ++ [7] = byte 1 :: ((es.flatMap fun e => byte e.1.toNat :: e.2) ++ [7]))
      ∧ (es.length < 8 ∧ [(0 : Byte)] = byte Table.ink.toNat :: [] ∧ ([] : List Byte).length + 1 < Table.ink.entrySize)
      ∧ ((∃ ts : List Table, ts.length = 2 - es.length ∧ (ts.map Table.entrySize).sum = (6 :: zeros 5).length)
        ∧ 5 < (6 : Byte).toNat)
      ∧ ∀ ts : List Table, ts.length = 1 - ([] : List (Table × List Byte)).length → (ts.map Table.entrySize).sum ≠ [(9 : Byte)].length := by
  refine ⟨by decide, fun _ => ⟨storing_executing _ _ _, rfl⟩, by decide, by decide, fun _ => idle_reset.executing _ _, by decide, by decide,
    by decide, ⟨⟨[.monitor], rfl, rfl⟩, by decide⟩, fun ts h hs => ?_⟩
  have hf := (entriesFit_iff 1 1).2 ⟨ts, h, hs⟩
  exact absurd hf (by decide)

theorem witness_StagedEntriesAreReadByTheirLayouts :
    (∀ e ∈ [Entry.profile 7 { Profile.initial with scoreMax := 65535, runMax := 200 }, .channels ⟨1023, 0, 1, 4095⟩, putEntry,
        .drop ⟨7, 31, 63⟩, .levels .b 9 ⟨2000, 2500⟩, .window 60000, .monitor .reference ⟨true, 255, 15, 1⟩],
      e.Allowed State.reset)
      ∧ (∀ e ∈ [Entry.route .a 3 [3, 0, 1, 2], .route .b 8 [9]], e.Allowed State.reset)
      ∧ (Entry.geometry .a (exampleGeometry ⟨9, 9⟩)).Allowed State.reset
      ∧ (∀ e ∈ [Entry.dieCommon tables.dieCommon, .dieHead .b .t ⟨spaces 16, 255, 1000000⟩], e.Allowed State.reset)
      ∧ putBytes.length + 1 = Table.signature.entrySize ∧ State.reset.readEntry .signature putBytes = some putEntry := by
  refine ⟨fun e he => ?_, fun e he => ?_, ⟨rfl, by decide, by decide, by decide, by decide, by decide, by decide⟩, fun e he => ?_, rfl, rfl⟩
  all_goals simp only [List.mem_cons, List.not_mem_nil, or_false] at he
  · obtain rfl | rfl | rfl | rfl | rfl | rfl | rfl := he <;> (simp only [putEntry, Entry.Allowed]; try decide)
  · obtain rfl | rfl := he <;> (simp only [Entry.Allowed]; decide)
  · obtain rfl | rfl := he <;> (simp only [Entry.Allowed, Printable]; decide)

theorem witness_TableCommitChecksInOrder :
    let s := ask (storing (.staging (staged [putBytes]))) 0x3A []
    let dropBytes : List Byte := [1, 0, 3, 11, 0, 0, 0, 0]
    (∀ p, Executing (ask (storing p) 0x3A []) 0x3A (asked 0x3A []) ∧ (ask (storing p) 0x3A []).store.phase = p)
      ∧ ((staged []).received.length ≠ (staged []).count ∧ (staged [putBytes]).received.length = (staged [putBytes]).count)
      ∧ (∃ bs ∈ (staged [[2, 0, 0, 0, 0, 0, 0, 0]]).received, s.readEntry .signature bs = none)
      ∧ (staged [putBytes]).received.map (s.readEntry .signature) = [putEntry].map some
      ∧ ([putEntry].map Entry.key).Nodup ∧ ¬([putEntry, .drop ⟨0, 3, 11⟩].map Entry.key).Nodup
      ∧ [putBytes, dropBytes].map (s.readEntry .signature) = [putEntry, .drop ⟨0, 3, 11⟩].map some
      ∧ (s.store.tables.signature.length + 1 ≤ 256 ∧ ¬(List.replicate 256 (⟨⟨1, 1, 1⟩, 1, 1, false⟩ : SigEntry)).length + 1 ≤ 256) := by
  refine ⟨fun _ => ⟨storing_executing _ _ _, rfl⟩, by decide, by decide, by decide, by decide, by decide, by decide, by decide, ?_⟩
  rw [List.length_replicate]
  decide

theorem witness_EntriesReplaceTheirRecords :
    (State.reset.store.tables.signature.Pairwise fun x y => x.key.rank < y.key.rank) ∧ State.reset.FramesFiled
      ∧ State.reset.Slots 1 := ⟨List.Pairwise.nil, idle_reset.filed, idle_reset.slots (by decide)⟩

theorem witness_EntryApplicationAdvancesTheWrite :
    (storing (.programming (write [putEntry]) false)).FramesFiled ∧ (write [putEntry]).todo = putEntry :: []
      ∧ (write [putEntry, putEntry]).todo = putEntry :: [putEntry] ∧ [putEntry] ≠ [] := ⟨Idle.filed ⟨rfl, rfl⟩, rfl, rfl, by decide⟩

theorem witness_TableCommandsMoveTheStore :
    (∀ p code, Executing (ask (storing p) code []) code (asked code []) ∧ (ask (storing p) code []).store.phase = p)
      ∧ ∀ t ∈ [Table.ink, .geometry, .die], Executing (ask State.reset 0x3F [byte t.toNat]) 0x3F (asked 0x3F [byte t.toNat])
        ∧ (t ≠ (write []).table) :=
  ⟨fun _ _ => ⟨storing_executing _ _ _, rfl⟩, fun t ht => ⟨idle_reset.executing _ _, by revert t; decide⟩⟩

/-! ### Witnesses: what every step keeps

A running lane with a record, a booked strike and a step that waits; its step answers a next state. -/

/-- A lane with one decided record, whose strike is booked, and one step waiting. -/
def busy : State :=
  { plant { lane 200000 .armed [decided 39 199400 false] with
      heads := ⟨{ Head.initial with booking := [strike false], units := 5, reserved := 1, ink := false }, .initial⟩ } with
    pending := [.beltStep .a true] }

theorem busy_steps : ∃ t, step busy = .next t := ⟨_, rfl⟩

theorem busy_filed : busy.FramesFiled ∧ busy.FreeLinkIsIdle :=
  ⟨Idle.filed ⟨rfl, rfl⟩, fun _ => ⟨fun l => by cases l <;> rfl, rfl, rfl⟩⟩

theorem busy_tagFree : ∀ l, (busy.lane l).TagFree := by
  intro l
  unfold LaneS.TagFree
  cases l <;> decide

theorem busy_strikes : ∀ l, (busy.lane l).StrikesOwned := by
  intro l
  refine ⟨?_, fun h => ?_⟩
  · unfold LaneS.TagsDistinct
    cases l <;> decide
  · cases l <;> cases h <;> decide

theorem busy_counts : ∀ l, (busy.lane l).CountsRight := by
  intro l
  refine ⟨?_, ?_, ?_, ?_, fun k => ?_⟩
  · unfold LaneS.Balanced
    cases l <;> decide
  · unfold LaneS.TagsDistinct
    cases l <;> decide
  · unfold LaneS.Decided
    cases l <;> decide
  · cases l <;> decide
  · cases l <;> (revert k; decide)

theorem witness_QueuesStayServedAndRingsCanonical :
    busy.FramesFiled ∧ busy.FreeLinkIsIdle ∧ busy.RingsCanonical ∧ ∃ t, step busy = .next t :=
  ⟨busy_filed.1, busy_filed.2, fun l b => by cases l <;> cases b <;> exact Ring.canonical_nil, busy_steps⟩

theorem witness_SlotsAndPlacesStayBalanced : busy.SlotsBalanced ∧ busy.WithinCapacity ∧ ∃ t, step busy = .next t :=
  ⟨⟨by decide, rfl⟩, ⟨by decide, fun l => by cases l <;> decide, by decide, fun l => by cases l <;> decide,
    fun l h => by cases l <;> cases h <;> decide, by decide, by decide, fun _ => rfl, nofun⟩, busy_steps⟩

/-- Three records with a length, of one lane: one SCORING, one QUEUED, one that waits for a slot. -/
def scanned : List Piece :=
  [{ fresh 36 196000 with length := some 900, scan := .scoring }, { fresh 37 198000 with length := some 900, scan := .queued },
    { fresh 38 200000 with length := some 900, scan := .slotWait }]

/-- A part that scores one of them, with the next step that completes it. -/
def scanning : State :=
  { plant (lane 201000 .armed scanned) with
    pending := [.scoringComplete], scan := { State.reset.scan with waitList := [(.a, 38)] }
    scorer := ⟨⟨[job .a 37], []⟩, some (job .a 36), .a⟩ }

theorem scanning_list (l : Lane) : (scanning.lane l).list = match l with | .a => scanned | .b => [] := by cases l <;> rfl

theorem scanning_right : scanning.ScansRight := by
  refine ⟨?_, by decide, ?_, ?_, ?_, ?_, ?_, ?_, ?_, ?_⟩
  · intro l; cases l <;> decide
  · intro l tag; rw [scanning_list, show scanning.scan.waitList = [(.a, 38)] from rfl]; cases l <;> simp [scanned, fresh, eq_comm]
  · intro l; cases l <;> decide
  · intro l tag
    rw [scanning_list, show scanning.scorer.queues = ⟨[job .a 37], []⟩ from rfl]
    cases l <;> simp [scanned, fresh, job, PerLane.get, eq_comm]
  · intro l p hp hs
    rw [scanning_list] at hp
    refine ⟨job .a 36, rfl, ?_⟩
    cases l <;> simp only [scanned, List.mem_cons, List.not_mem_nil, or_false] at hp
    obtain rfl | rfl | rfl := hp
    · exact ⟨rfl, rfl⟩
    · cases hs
    · cases hs
  · intro l p hp _
    rw [scanning_list] at hp
    cases l <;> simp only [scanned, List.mem_cons, List.not_mem_nil, or_false] at hp
    obtain rfl | rfl | rfl := hp <;> rfl
  · intro l; rw [scanning_list]; cases l <;> simp [scanned, fresh]
  · intro l h; cases l
    · exact absurd h (by decide)
    · intro p hp
      simp [scanning_list] at hp
  · intro l st p h
    have he : ∀ l, (scanning.lane l).eye = match l with | .a => .armed | .b => .idle := by intro l; cases l <;> rfl
    rw [he] at h
    cases l <;> exact Eye.noConfusion h

theorem witness_WaitListAndJobsStayRight :
    scanning.ScansRight ∧ (∀ l, (scanning.lane l).TagFree) ∧ ∃ t, step scanning = .next t := by
  refine ⟨scanning_right, fun l => ?_, _, rfl⟩
  unfold LaneS.TagFree
  cases l <;> decide

theorem witness_SignatureTableStaysSound : busy.store.SignatureSound ∧ ∃ t, step busy = .next t :=
  ⟨⟨List.Pairwise.nil, by decide, List.Pairwise.nil, List.nodup_nil, rfl, by decide, by decide⟩, busy_steps⟩

theorem witness_ReservedInkStaysBalanced :
    busy.InkBalanced ∧ (∀ l, (busy.lane l).StrikesOwned) ∧ (∀ l, (busy.lane l).TagFree) ∧ ∃ t, step busy = .next t :=
  ⟨fun l h => by cases l <;> cases h <;> exact ⟨by decide, by decide, by decide, by decide⟩, busy_strikes, busy_tagFree, busy_steps⟩

theorem witness_CountsAndInboundStayRight :
    (∀ l, (busy.lane l).CountsRight) ∧ (∀ l, (busy.lane l).TagFree) ∧ (∀ l, (busy.lane l).counters.captured < 4294967295)
      ∧ busy.PocketsFit ∧ ∃ t, step busy = .next t :=
  ⟨busy_counts, busy_tagFree, fun l => by cases l <;> decide, ⟨fun l => by cases l <;> decide, nofun, fun l => by cases l <;> decide⟩, busy_steps⟩

theorem witness_LanesKeepLeadOrderAndStates :
    (∀ l, (busy.lane l).LeadsAscend) ∧ (∀ l, (busy.lane l).LeadsNear) ∧ (∀ l, (busy.lane l).StateHolds) ∧ ∃ t, step busy = .next t := by
  refine ⟨fun l => ?_, fun l => ?_, fun l => ?_, busy_steps⟩
  · unfold LaneS.LeadsAscend
    cases l <;> decide
  · unfold LaneS.LeadsNear
    cases l <;> decide
  · cases l <;> exact ⟨by decide, by decide, by decide, by decide⟩

theorem witness_LaneStatesChangeByTheirSteps :
    (∃ t, exec .laneStart (ask (plant stoppedLane) 0x10 [0]) = .next t ∧ (t.lane .a).state = .running)
      ∧ (∃ t, exec .laneStop (ask (plant (lane 0 .armed [fresh 39 0])) 0x11 [0]) = .next t ∧ (t.lane .a).state = .draining)
      ∧ (∃ t, exec .jamClear (ask (plant { LaneS.initial with state := .jammed }) 0x12 [0]) = .next t ∧ (t.lane .a).state = .stopped)
      ∧ (∃ t, exec (.coveredLimit .a) (plant (lane 203001 (.covered 200000) [])) = .next t ∧ (t.lane .a).state = .jammed)
      ∧ ∃ t, exec (.retirement .a 39) (plant { lane 206100 .armed [decided 39 200000 true] with state := .draining, feedRate := .hold })
          = .next t ∧ (t.lane .a).state = .stopped :=
  ⟨⟨_, rfl, rfl⟩, ⟨_, rfl, rfl⟩, ⟨_, rfl, rfl⟩, ⟨_, rfl, rfl⟩, _, rfl, rfl⟩

end Sys2Proof.Tests
end

/-! The Link Port's commands: how their arguments are read, what each completion answers, and the
statement about both (R15, R16). -/

namespace Sys2Proof.Machine

/-! ### Arguments (R15, R16) -/

/-- A station byte is any byte but 0xFF (R1, R15). -/
theorem stationByte_eq_some {b x : Byte} : stationByte b = some x ↔ b ≠ 0xFF#8 ∧ b = x := by
  unfold stationByte
  split <;> simp_all

theorem stationByte_eq_none {b : Byte} : stationByte b = none ↔ b = 0xFF#8 := by
  unfold stationByte
  split <;> simp_all

/-- A compare mode is read from its number alone (R174). -/
theorem modeOf_eq_some {b : Byte} {m : CompareMode} : modeOf b = some m ↔ b.toNat = m.toNat := by
  unfold modeOf
  split <;> cases m <;> simp_all [CompareMode.toNat]

/-- The numbers past BOTH name no compare mode (R15). -/
theorem modeOf_eq_none {b : Byte} : modeOf b = none ↔ 3 < b.toNat := by
  unfold modeOf
  split
  case h_5 => simp only [imp_false, true_iff] at *; omega
  all_goals simp_all

theorem addressArgs_valid {l p m : Byte} {mode : CompareMode} (hl : l ≠ 0xFF#8) (hp : p ≠ 0xFF#8)
    (hm : m.toNat = mode.toNat) : addressArgs [l, p, m] = .valid (⟨l, p⟩, mode) := by
  simp [addressArgs, inRange, stationByte_eq_some.2 ⟨hl, rfl⟩, stationByte_eq_some.2 ⟨hp, rfl⟩, modeOf_eq_some.2 hm]

theorem addressArgs_outOfRange {l p m : Byte} (h : l = 0xFF#8 ∨ p = 0xFF#8 ∨ 3 < m.toNat) :
    addressArgs [l, p, m] = .outOfRange := by
  obtain h | h | h := h
  · simp [addressArgs, inRange, stationByte_eq_none.2 h]
  · simp [addressArgs, inRange, stationByte_eq_none.2 h]
  · simp [addressArgs, inRange, modeOf_eq_none.2 h]

theorem countersArg_valid {sel : Byte} (h : sel.toNat < 16) : countersArg [sel] = .valid sel.toNat := by
  simp [countersArg, inRange, selection, beNat, h]

/-- Bit i of the selection byte chooses the counter of that bit (R16, 12.2). -/
theorem LinkCounters.cleared_toNat (sel : Byte) (k : LinkCounters) :
    k.cleared sel.toNat =
      { checkErrors := if sel.getLsbD 0 then 0 else k.checkErrors
        formatErrors := if sel.getLsbD 1 then 0 else k.formatErrors
        kindUnknown := if sel.getLsbD 2 then 0 else k.kindUnknown
        passDrops := if sel.getLsbD 3 then 0 else k.passDrops } := by
  simp only [LinkCounters.cleared, BitVec.testBit_toNat]

/-! ### Completions -/

/-- What a completion with a field out of range answers (R20). -/
theorem completion_outOfRange_next {α : Type} {s : State} {code : Byte} {c : Cmd} {parse : List Byte → Args α}
    {act : State → Cmd → α → State} (he : Executing s code c) (h : parse c.args = .outOfRange) :
    (Host.Outcome.next (s.completion code parse act) : Result) = .next (s.complete c .badArgument []) :=
  congrArg _ (State.completion_outOfRange act he h)

/-- LINK_ADDRESS answers DONE from the part that has the new address and mode (R15). -/
theorem linkAddress_completes {s : State} {c : Cmd} {x : Station} {mode : CompareMode} (he : Executing s 0x01 c)
    (h : addressArgs c.args = .valid (x, mode)) :
    Completes .linkAddress s c { s with link := { s.link with station := x, mode := mode } } .done [] :=
  .of_next he (completion_next he h)

/-- LINK_ADDRESS with a field out of range leaves the part alone (R15, R20). -/
theorem linkAddress_badArgument {s : State} {c : Cmd} (he : Executing s 0x01 c) (h : addressArgs c.args = .outOfRange) :
    Completes .linkAddress s c s .badArgument [] :=
  .of_next he (completion_outOfRange_next he h)

/-- LINK_COUNTERS_CLEAR answers the counters of the part before it clears the chosen ones (R16). -/
theorem linkCountersClear_completes {s : State} {c : Cmd} {sel : Nat} (he : Executing s 0x02 c)
    (h : countersArg c.args = .valid sel) :
    Completes .linkCountersClear s c { s with link := { s.link with counters := s.link.counters.cleared sel } } .done
      s.link.counters.bytes :=
  .of_next he (completion_next he h)

/-- Settles O4: each clause is the completion of its command, with the arguments read. -/
theorem linkCommandsReplaceAndClear : Obligations.LinkCommandsReplaceAndClear := by
  refine ⟨fun s c l p m he ha => ⟨fun mode hl hp hm => ?replaced, fun hbad => ?refused⟩, fun s c sel he ha hsel => ?cleared⟩
  case replaced => exact linkAddress_completes he (ha ▸ addressArgs_valid hl hp hm)
  case refused => exact linkAddress_badArgument he (ha ▸ addressArgs_outOfRange hbad)
  case cleared =>
    have h := linkCountersClear_completes he (ha ▸ countersArg_valid hsel)
    rw [LinkCounters.cleared_toNat] at h
    exact h

end Sys2Proof.Machine

/-! CLEAR_INDICATIONS: how its argument is read and what its completion answers; which latches drive
ALERT; and the statement about both (R30, R31). -/

namespace Sys2Proof.Machine

/-! ### Clearing (R30) -/

/-- A selection of the eleven latches is read from its two bytes as itself (R30, R174). -/
theorem latchesArg_beBytes (sel : BitVec 11) : latchesArg (beBytes 2 sel.toNat) = .valid sel.toNat := by
  have hlt : sel.toNat < 2 ^ 11 := sel.isLt
  have hread : selection 11 (beBytes 2 sel.toNat) = some sel.toNat := by
    rw [selection, beNat_beBytes_two (by omega), if_pos hlt]
  have harg : latchesArg (beBytes 2 sel.toNat) = inRange (selection 11 (beBytes 2 sel.toNat)) := rfl
  rw [harg, hread]
  rfl

/-- Each selected latch becomes clear, and NOTICE_LOST is that of bit 9 (R29, R30). -/
theorem Reports.clearIndications_toNat (sel : BitVec 11) (r : Reports) :
    r.clearIndications sel.toNat =
      { r with latches := r.latches &&& ~~~sel, noticeLost := if sel.getLsbD 9 then 0 else r.noticeLost } := by
  rw [Reports.clearIndications, BitVec.ofNat_toNat, BitVec.setWidth_eq, BitVec.testBit_toNat]
  rfl

/-- CLEAR_INDICATIONS answers the latches and NOTICE_LOST of the part before it clears the chosen
ones (R30). -/
theorem clearIndications_completes {s : State} {c : Cmd} {sel : Nat} (he : Executing s 0x08 c)
    (h : latchesArg c.args = .valid sel) :
    Completes .clearIndications s c { s with reports := s.reports.clearIndications sel } .done
      (beBytes 2 s.reports.latches.toNat ++ beBytes 2 s.reports.noticeLost) :=
  .of_next he (completion_next he h)

/-! ### ALERT (R31) -/

/-- Every place of the indication register is the bit of a latch (R29). -/
theorem Latch.exists_bit_eq : ∀ {i : Nat}, i < 11 → ∃ x : Latch, x.bit = i
  | 0, _ => ⟨.laneChange, rfl⟩
  | 1, _ => ⟨.jam, rfl⟩
  | 2, _ => ⟨.monitorReject, rfl⟩
  | 3, _ => ⟨.monitorLate, rfl⟩
  | 4, _ => ⟨.monitorShingle, rfl⟩
  | 5, _ => ⟨.monitorReference, rfl⟩
  | 6, _ => ⟨.pocketFull, rfl⟩
  | 7, _ => ⟨.inkLow, rfl⟩
  | 8, _ => ⟨.inkOut, rfl⟩
  | 9, _ => ⟨.noticeLost, rfl⟩
  | 10, _ => ⟨.tableError, rfl⟩
  | n + 11, h => absurd h (by omega)

/-- ALERT is released exactly while every latch is clear (R31). -/
theorem State.alert_eq_false_iff (s : State) : s.alert = false ↔ ∀ x : Latch, s.latched x = false := by
  have hzero : s.alert = false ↔ s.reports.latches = 0#11 := bne_eq_false_iff_eq
  rw [hzero]
  constructor
  · intro h x
    rw [State.latched, h, BitVec.getLsbD_zero]
  · intro h
    refine BitVec.eq_of_getLsbD_eq fun i hi => ?_
    obtain ⟨x, rfl⟩ := Latch.exists_bit_eq hi
    exact (h x).trans BitVec.getLsbD_zero.symm

theorem State.alert_iff (s : State) : s.alert = true ↔ ∃ x : Latch, s.latched x = true := by
  rw [← not_iff_not]
  simpa using s.alert_eq_false_iff

/-- Settles O10: the command completes with its argument read, and ALERT follows the latches. -/
theorem indicationsAreClearedAndDriveAlert : Obligations.IndicationsAreClearedAndDriveAlert := by
  refine ⟨fun s c sel he ha => ?cleared, State.alert_iff, ?powerOn⟩
  case cleared =>
    have h := clearIndications_completes he (ha ▸ latchesArg_beBytes sel)
    rw [Reports.clearIndications_toNat] at h
    exact h
  case powerOn => rfl

end Sys2Proof.Machine

/-! The results of a corner in one channel: the sum of the excesses, the longest run of qualifying
samples with its earliest start, the missing samples, and the statement about them (R85 to R88). -/

namespace Sys2Proof.Machine

/-! ### Stretches of qualifying samples (R87) -/

/-- The samples `a` to `a + n - 1`, counted from 1, are in the window and all qualify (R87). -/
def Stretch (qs : List Bool) (a n : Nat) : Prop := ∀ i, a ≤ i → i < a + n → 1 ≤ i ∧ qs[i - 1]? = some true

theorem Stretch.zero (qs : List Bool) (a : Nat) : Stretch qs a 0 := fun _ _ _ => by omega

/-- A stretch that is not empty starts at 1 or later and ends within the window. -/
theorem Stretch.bounds {qs : List Bool} {a n : Nat} (h : Stretch qs a n) (hn : 0 < n) : 1 ≤ a ∧ a + n ≤ qs.length + 1 := by
  have hfirst := (h a (by omega) (by omega)).1
  obtain ⟨hlast, -⟩ := List.getElem?_eq_some_iff.1 (h (a + n - 1) (by omega) (by omega)).2
  exact ⟨hfirst, by omega⟩

theorem Stretch.le_length {qs : List Bool} {a n : Nat} (h : Stretch qs a n) : n ≤ qs.length := by
  obtain rfl | hn := Nat.eq_zero_or_pos n
  · exact Nat.zero_le _
  · have := h.bounds hn
    omega

/-- One more sample does not touch the stretches that end before it. -/
theorem stretch_snoc_inside {qs : List Bool} {q : Bool} {a n : Nat} (h : a + n ≤ qs.length + 1) :
    Stretch (qs ++ [q]) a n ↔ Stretch qs a n := by
  refine forall_congr' fun i => forall_congr' fun _ => forall_congr' fun _ => and_congr_right fun _ => ?_
  rw [List.getElem?_append_left (by omega)]

/-- A stretch ends with the sample read last exactly when that one qualifies and the samples before
it are a stretch. -/
theorem stretch_snoc_end {qs : List Bool} {q : Bool} {a n : Nat} (h : a + n = qs.length + 1) :
    Stretch (qs ++ [q]) a (n + 1) ↔ Stretch qs a n ∧ q = true := by
  rw [← stretch_snoc_inside (q := q) h.le]
  have hq : (qs ++ [q])[a + n - 1]? = some q := by simp [h]
  constructor
  · intro hs
    have hlast := (hs (a + n) (by omega) (by omega)).2
    exact ⟨fun i h1 h2 => hs i h1 (by omega), Option.some.inj (hq.symm.trans hlast)⟩
  · rintro ⟨hs, rfl⟩ i h1 h2
    obtain hlt | rfl : i < a + n ∨ i = a + n := by omega
    · exact hs i h1 hlt
    · exact ⟨by omega, hq⟩

/-- A stretch of a window with one more sample is empty, was there before it, or ends with it. -/
theorem Stretch.snoc_cases {qs : List Bool} {q : Bool} {a n : Nat} (h : Stretch (qs ++ [q]) a n) :
    n = 0 ∨ Stretch qs a n ∨ a + n = (qs ++ [q]).length + 1 := by
  obtain rfl | hn := Nat.eq_zero_or_pos n
  · exact .inl rfl
  have hle := (h.bounds hn).2
  rw [List.length_append, List.length_singleton] at hle ⊢
  obtain hin | hend : a + n ≤ qs.length + 1 ∨ a + n = qs.length + 2 := by omega
  · exact .inr (.inl ((stretch_snoc_inside hin).1 h))
  · exact .inr (.inr hend)

/-! ### The open run and the longest run (R87) -/

/-- `n` is the length of the run that is open after the samples `qs`. -/
structure OpenRun (qs : List Bool) (n : Nat) : Prop where
  here : Stretch qs (qs.length + 1 - n) n
  most : ∀ a k, a + k = qs.length + 1 → Stretch qs a k → k ≤ n

/-- `n` is the length of the longest stretch of `qs`, and `first` the earliest start of one that long. -/
structure LongestRun (qs : List Bool) (n first : Nat) : Prop where
  most : ∀ a k, Stretch qs a k → k ≤ n
  zero : n = 0 → first = 0
  here : Stretch qs first n
  earliest : 0 < n → ∀ a, Stretch qs a n → first ≤ a

theorem OpenRun.nil : OpenRun [] 0 := ⟨.zero _ _, fun _ _ _ hs => hs.le_length⟩

theorem LongestRun.nil : LongestRun [] 0 0 := ⟨fun _ _ hs => hs.le_length, fun _ => rfl, .zero _ _, nofun⟩

/-- A sample that does not qualify closes the open run; one that does makes it longer. -/
theorem OpenRun.snoc {qs : List Bool} {n : Nat} (h : OpenRun qs n) (q : Bool) :
    OpenRun (qs ++ [q]) (if q then n + 1 else 0) := by
  have hmost : ∀ a k, a + k = (qs ++ [q]).length + 1 → Stretch (qs ++ [q]) a k → k = 0 ∨ k ≤ n + 1 ∧ q = true := by
    intro a k hak hs
    rw [List.length_append, List.length_singleton] at hak
    cases k with
    | zero => exact .inl rfl
    | succ k =>
      obtain ⟨hs', hq⟩ := (stretch_snoc_end (by omega)).1 hs
      exact .inr ⟨Nat.succ_le_succ (h.most a k (by omega) hs'), hq⟩
  cases q with
  | false => exact ⟨.zero _ _, fun a k hak hs => by simpa using hmost a k hak hs⟩
  | true =>
    refine ⟨?_, fun a k hak hs => ?_⟩
    · have hlen := h.here.le_length
      rw [if_pos rfl, List.length_append, List.length_singleton, Nat.add_sub_add_right]
      exact (stretch_snoc_end (by omega)).2 ⟨h.here, rfl⟩
    · have := hmost a k hak hs
      rw [if_pos rfl]
      omega

/-- The longest run stays while the open run is no longer. -/
theorem LongestRun.kept {qs : List Bool} {q : Bool} {n first c : Nat} (h : LongestRun qs n first)
    (ho : OpenRun (qs ++ [q]) c) (hc : c ≤ n) : LongestRun (qs ++ [q]) n first where
  most a k hs := by
    obtain rfl | hin | hend := hs.snoc_cases
    · exact Nat.zero_le _
    · exact h.most a k hin
    · exact (ho.most a k hend hs).trans hc
  zero := h.zero
  here := by
    obtain rfl | hn := Nat.eq_zero_or_pos n
    · exact .zero _ _
    · exact (stretch_snoc_inside (h.here.bounds hn).2).2 h.here
  earliest hn a hs := by
    have hfirst := (h.here.bounds hn).2
    obtain rfl | hin | hend := hs.snoc_cases
    · exact absurd hn (Nat.lt_irrefl 0)
    · exact h.earliest hn a hin
    · rw [List.length_append] at hend
      omega

/-- An open run longer than the longest run becomes it. -/
theorem LongestRun.replaced {qs : List Bool} {q : Bool} {n first c : Nat} (h : LongestRun qs n first)
    (ho : OpenRun (qs ++ [q]) c) (hc : n < c) : LongestRun (qs ++ [q]) c ((qs ++ [q]).length + 1 - c) where
  most a k hs := by
    obtain rfl | hin | hend := hs.snoc_cases
    · exact Nat.zero_le _
    · exact (h.most a k hin).trans hc.le
    · exact ho.most a k hend hs
  zero h0 := by omega
  here := ho.here
  earliest _ a hs := by
    obtain rfl | hin | hend := hs.snoc_cases
    · omega
    · exact absurd (h.most a c hin) (by omega)
    · omega

/-- What the scan of a window holds after the samples `qs`. -/
structure RunScan.Right (qs : List Bool) (r : RunScan) : Prop where
  index : r.index = qs.length
  current : OpenRun qs r.current
  best : LongestRun qs r.best r.first

theorem RunScan.Right.next {qs : List Bool} {r : RunScan} (h : r.Right qs) (q : Bool) : (r.next q).Right (qs ++ [q]) := by
  have hindex : r.index + 1 = (qs ++ [q]).length := by rw [h.index, List.length_append, List.length_singleton]
  have hcurrent := h.current.snoc q
  unfold RunScan.next
  generalize (if q then r.current + 1 else 0) = c at *
  by_cases hc : r.best < c
  · simp only [if_pos hc, hindex]
    exact ⟨rfl, hcurrent, h.best.replaced hcurrent hc⟩
  · simp only [if_neg hc]
    exact ⟨hindex, hcurrent, h.best.kept hcurrent (Nat.le_of_not_lt hc)⟩

theorem RunScan.right_foldl (qs : List Bool) : (qs.foldl RunScan.next ⟨0, 0, 0, 0⟩).Right qs := by
  induction qs using List.reverseRecOn with
  | nil => exact ⟨rfl, OpenRun.nil, LongestRun.nil⟩
  | append_singleton qs q ih =>
    rw [List.foldl_append]
    exact ih.next q

theorem longestRun_right (qs : List Bool) : LongestRun qs (longestRun qs).1 (longestRun qs).2 := (RunScan.right_foldl qs).best

/-! ### The results of a channel (R85 to R88) -/

theorem excess_eq_getD (ch : Channel) (ref floor : Nat) (x : Option Sample) :
    excess ch ref floor x = (x.map fun y => y.value ch - (ref + floor)).getD 0 := by
  cases x <;> rfl

/-- A sample qualifies when it is there and its excess is at the run level or above (R87). -/
theorem qualifies_iff (ch : Channel) (ref floor level : Nat) (x : Option Sample) :
    qualifies ch ref floor level x = true ↔ ∃ y, x = some y ∧ level ≤ y.value ch - (ref + floor) := by
  cases x with
  | none => simp [qualifies]
  | some y =>
    have hq : qualifies ch ref floor level (some y) = decide (level ≤ y.value ch - (ref + floor)) := rfl
    simp [hq]

theorem getElem?_qualifies_iff (ch : Channel) (ref floor level : Nat) (w : List (Option Sample)) (i : Nat) :
    (w.map (qualifies ch ref floor level))[i]? = some true
      ↔ ∃ y, w[i]? = some (some y) ∧ level ≤ y.value ch - (ref + floor) := by
  simp only [List.getElem?_map, Option.map_eq_some_iff, qualifies_iff]
  constructor
  · rintro ⟨-, hx, y, rfl, hy⟩
    exact ⟨y, hx, hy⟩
  · rintro ⟨y, hx, hy⟩
    exact ⟨some y, hx, y, rfl, hy⟩

/-- The stretches of a window are its runs of samples that are there with an excess at the run level
or above (R87). -/
theorem stretch_qualifies_iff (ch : Channel) (ref floor level : Nat) (w : List (Option Sample)) (a n : Nat) :
    Stretch (w.map (qualifies ch ref floor level)) a n
      ↔ ∀ i, a ≤ i → i < a + n → ∃ y, w[i - 1]? = some (some y) ∧ 1 ≤ i ∧ level ≤ y.value ch - (ref + floor) := by
  refine forall_congr' fun i => forall_congr' fun _ => forall_congr' fun _ => ?_
  rw [getElem?_qualifies_iff, ← exists_and_left]
  exact exists_congr fun y => and_left_comm

theorem missingCount_eq (w : List (Option Sample)) : missingCount w = (w.filter fun x => x = none).length := by
  unfold missingCount
  congr 1
  exact List.filter_congr fun x _ => by cases x <;> rfl

/-- Settles O35: the score is that of the saturated sum, and the scan of the samples finds the
longest stretch and its earliest start. -/
theorem cornerResultsFollowTheExcesses : Obligations.CornerResultsFollowTheExcesses := by
  intro c m refs w ch ref floor level excessOf good r
  have hexcess : excess ch ref floor = fun x => (x.map excessOf).getD 0 := by
    funext x
    cases ch <;> exact excess_eq_getD _ ref floor x
  have hgood : ∀ a n, Stretch (w.map (qualifies ch ref floor level)) a n ↔ ∀ i, a ≤ i → i < a + n → good i := by
    intro a n
    cases ch <;> exact stretch_qualifies_iff _ ref floor level w a n
  have hscore : r.score = scoreOf (excessSum (w.map (excess ch ref floor))) m := by cases ch <;> rfl
  have hrun : LongestRun (w.map (qualifies ch ref floor level)) r.run r.first := by
    cases ch <;> exact longestRun_right _
  refine ⟨?score, missingCount_eq w, fun a n _ hs => hrun.most a n ((hgood a n).2 hs), hrun.zero, fun hpos => ?found⟩
  case score => rw [hscore, hexcess]; rfl
  case found =>
    exact ⟨(hrun.here.bounds hpos).1, (hgood _ _).1 hrun.here,
      fun a _ hs => hrun.earliest hpos a ((hgood a _).2 hs)⟩

end Sys2Proof.Machine

/-! SCORING_COMPLETE: which record takes the finding, what its writing changes, how the audit counter
and the audit store follow, and the statement about the step (R77, R97 to R100). -/

namespace Sys2Proof.Machine

/-! ### The record that takes the finding (R98) -/

theorem State.scoringRecord_eq_none {s : State} {j : Job} (h : ∀ p, s.piece? j.lane j.tag = some p → p.scan ≠ .scoring) :
    s.scoringRecord j = none := by
  simpa [State.scoringRecord, Option.filter_eq_none_iff] using h

theorem State.scoringRecord_eq_some {s : State} {j : Job} {p : Piece} (h : s.piece? j.lane j.tag = some p)
    (hs : p.scan = .scoring) : s.scoringRecord j = some p := by
  simp [State.scoringRecord, h, hs]

/-- Without a record still SCORING the result is discarded (R98). -/
theorem State.scored_of_none {s : State} {j : Job} (h : s.scoringRecord j = none) : s.scored j = s := by
  simp only [State.scored, h]

theorem State.scored_of_some {s : State} {j : Job} {p : Piece} (h : s.scoringRecord j = some p) :
    s.scored j =
      (s.writeFinding j.lane p (findingOf s.store.tables j (scoreJob s.store.tables j))).advanceAudit j
        (scoreJob s.store.tables j) (findingOf s.store.tables j (scoreJob s.store.tables j)).result := by
  simp only [State.scored, h]

/-! ### The written finding (R96 to R98, R100) -/

/-- A finding is one change of its lane: the records of the tag take it, and the counters of late and
stale findings count it. -/
theorem State.writeFinding_eq (s : State) (l : Lane) (p : Piece) (f : Finding) :
    s.writeFinding l p f =
      s.modLane l fun x =>
        { x with
          list := modTagged p.tag (Piece.found { f with staleRef := (s.lane l).monitors.reference.declared }) x.list
          counters := x.counters.written p.decisionTaken (s.lane l).monitors.reference.declared } := by
  simp only [State.writeFinding, State.modPiece, State.count_eq, State.modLane_modLane, LaneS.count]

@[simp] theorem State.writeFinding_auditCounter (s : State) (l : Lane) (p : Piece) (f : Finding) :
    ((s.writeFinding l p f).lane l).auditCounter = (s.lane l).auditCounter := by
  rw [State.writeFinding_eq, State.modLane_lane]

/-! ### The audit counter (R77) -/

theorem State.advanceAudit_off {s : State} (j : Job) (rs : PerCorner CornerResult) (r : FindingResult)
    (h : s.scan.auditInterval = 0) : s.advanceAudit j rs r = s := if_pos h

theorem State.advanceAudit_below {s : State} {j : Job} (rs : PerCorner CornerResult) (r : FindingResult)
    (h : (s.lane j.lane).auditCounter + 1 < s.scan.auditInterval) :
    s.advanceAudit j rs r = s.modLane j.lane fun x => { x with auditCounter := (s.lane j.lane).auditCounter + 1 } := by
  rw [State.advanceAudit, if_neg (by omega), if_pos h]

theorem State.advanceAudit_reached {s : State} {j : Job} (rs : PerCorner CornerResult) (r : FindingResult)
    (hon : 0 < s.scan.auditInterval) (h : s.scan.auditInterval ≤ (s.lane j.lane).auditCounter + 1) :
    s.advanceAudit j rs r = (s.modLane j.lane fun x => { x with auditCounter := 0 }).offerAudit j rs r := by
  rw [State.advanceAudit, if_neg (by omega), if_neg (by omega)]

theorem State.offerAudit_empty {s : State} (j : Job) (rs : PerCorner CornerResult) (r : FindingResult)
    (h : s.scan.auditStore = none) :
    s.offerAudit j rs r =
      { s with scan := { s.scan with auditStore := some ⟨j.lane, j.tag, j.m, j.windows, j.refs, rs, r⟩ } } := by
  simp only [State.offerAudit, h]

theorem State.offerAudit_full {s : State} (j : Job) (rs : PerCorner CornerResult) (r : FindingResult)
    (h : s.scan.auditStore ≠ none) :
    s.offerAudit j rs r = s.count j.lane fun c => { c with auditSkipped := satInc Config.max32 c.auditSkipped } := by
  obtain ⟨a, ha⟩ := Option.ne_none_iff_exists'.1 h
  simp only [State.offerAudit, ha]

/-! ### The step (R99) -/

/-- SCORING_COMPLETE frees the engine after the finding, passes the slot on and takes the next job (R99). -/
theorem scoringComplete_next {s : State} {j : Job} (h : s.scorer.engine = some j) :
    exec .scoringComplete s
      = .next ({ s.scored j with scorer := { (s.scored j).scorer with engine := none } }.passSlotOn).takeJob := by
  have hexec : exec .scoringComplete s = execScoringComplete s := rfl
  rw [hexec, execScoringComplete, h]

/-- Settles O37: the finding of a record still SCORING is written and audited by the cases of the
interval and the store, any other is discarded, and the step goes on from there. -/
theorem scoringCompleteWritesOrDiscards : Obligations.ScoringCompleteWritesOrDiscards := by
  intro s j hj rs f after stale n
  have hnext : ∀ {u}, s.scored j = u → exec .scoringComplete s = .next (after u) := by
    rintro _ rfl
    exact scoringComplete_next hj
  refine ⟨fun hnot => hnext (State.scored_of_none (State.scoringRecord_eq_none hnot)), fun p hp hs => ?written⟩
  case written =>
    intro u
    have hu : s.writeFinding j.lane p f = u := State.writeFinding_eq ..
    have hscored : s.scored j = u.advanceAudit j rs f.result := by
      rw [← hu]
      exact State.scored_of_some (State.scoringRecord_eq_some hp hs)
    have hcounter : (u.lane j.lane).auditCounter = (s.lane j.lane).auditCounter := by
      rw [← hu, State.writeFinding_auditCounter]
    refine ⟨fun hoff => hnext ?off, fun hbelow => hnext ?below, fun hon hreached => ?reached⟩
    case off => exact hscored.trans (State.advanceAudit_off (s := u) _ _ _ hoff)
    case below => rw [hscored, State.advanceAudit_below _ _ (by rw [hcounter]; exact hbelow), hcounter]
    case reached =>
      intro v
      have hoffer : s.scored j = v.offerAudit j rs f.result := by
        rw [hscored]
        exact State.advanceAudit_reached _ _ hon (by rw [hcounter]; exact hreached)
      exact ⟨fun hempty => hnext (hoffer.trans (State.offerAudit_empty _ _ _ hempty)),
        fun hfull => hnext (hoffer.trans (State.offerAudit_full _ _ _ hfull))⟩

end Sys2Proof.Machine

/-! The Cancel Scheduler: the booking check answers by the first case that applies, and the statement
about it (R116 to R118). -/

namespace Sys2Proof.Machine

/-! ### What the check reads -/

/-- The die is complete when the common record is loaded and a date has been set (R116, R126). -/
theorem State.dieComplete_iff (s : State) :
    s.dieComplete = true ↔ s.store.tables.dieCommon.loaded = true ∧ s.date.isSome = true := by
  rw [State.dieComplete, Bool.and_eq_true]

/-- The ink serves one more strike of a head: its INK inhibit is clear and its units cover what is
reserved and the cost of the strike (R118). -/
def State.inkServes (s : State) (l : Lane) (h : HeadId) : Prop :=
  (s.head l h).ink = false ∧ (s.dieHead l h).inkCost + (s.head l h).reserved ≤ (s.head l h).units

/-- The test of the booking check is that the ink does not serve. -/
theorem State.inkTest_iff (s : State) (l : Lane) (h : HeadId) :
    ((s.head l h).ink || decide ((s.head l h).units < (s.head l h).reserved + (s.dieHead l h).inkCost)) = true
      ↔ ¬s.inkServes l h := by
  rw [State.inkServes, Bool.or_eq_true, decide_eq_true_eq, not_and_or, Bool.not_eq_false, not_le, Nat.add_comm]

/-- A start is passed when free_pos is not at or before it (R37, R118). -/
theorem not_reached_iff (q p : Pos) : (!reached q p) = true ↔ 8388608 ≤ (q - p).toNat := by
  rw [Bool.not_eq_true', reached, decide_eq_false_iff_not, not_lt, halfRange]

/-! ### The cases of the check, in order (R118) -/

section Cases

variable {s : State} {l : Lane} {h : HeadId} (lead : Pos) (stamp : Nat)

theorem State.bookingCheck_fault (hf : (s.head l h).fault = true) : s.bookingCheck l h lead stamp = .suppressed .fault :=
  if_pos hf

theorem State.bookingCheck_die (hf : (s.head l h).fault = false) (hd : ¬s.dieComplete = true) :
    s.bookingCheck l h lead stamp = .suppressed .die := by
  rw [State.bookingCheck, if_neg (by simp [hf]), if_pos (by simpa using hd)]

theorem State.bookingCheck_ink (hf : (s.head l h).fault = false) (hd : s.dieComplete = true) (hi : ¬s.inkServes l h) :
    s.bookingCheck l h lead stamp = .suppressed .ink := by
  rw [State.bookingCheck, if_neg (by simp [hf]), if_neg (by simp [hd]), if_pos ((s.inkTest_iff l h).2 hi)]

/-- A head that can strike answers by its booking list and its free_pos. -/
theorem State.bookingCheck_able (hf : (s.head l h).fault = false) (hd : s.dieComplete = true) (hi : s.inkServes l h) :
    s.bookingCheck l h lead stamp =
      if Config.bookingDepth ≤ (s.head l h).booking.length
          ∨ 8388608 ≤ (strikeStartPos (s.geometry l) h lead stamp - (s.head l h).freePos).toNat then .missed
      else .bookable := by
  rw [State.bookingCheck, if_neg (by simp [hf]), if_neg (by simp [hd]), if_neg fun ht => (s.inkTest_iff l h).1 ht hi]
  simp only [not_reached_iff, ite_or]

end Cases

/-- Settles O28: each clause is the case of the check that its premises leave. -/
theorem bookingCheckTakesFirstCase : Obligations.BookingCheckTakesFirstCase := by
  intro s l h lead stamp x g start die inked check
  have hdie : s.dieComplete = true ↔ die := s.dieComplete_iff
  have hstart : strikeStartPos g h lead stamp = start := by cases h <;> rfl
  have hable : x.fault = false → die → inked →
      check = if 4 ≤ x.booking.length ∨ 8388608 ≤ (start - x.freePos).toNat then .missed else .bookable := by
    intro hf hd hi
    rw [← hstart]
    exact State.bookingCheck_able lead stamp hf (hdie.2 hd) hi
  refine ⟨State.bookingCheck_fault lead stamp, fun hf hd => ?die, fun hf hd hi => ?ink, fun hf hd hi hm => ?missed,
    fun hf hd hi hroom hahead => ?bookable⟩
  case die => exact State.bookingCheck_die lead stamp hf (mt hdie.1 hd)
  case ink => exact State.bookingCheck_ink lead stamp hf (hdie.2 hd) hi
  case missed => rw [hable hf hd hi, if_pos hm]
  case bookable => rw [hable hf hd hi, if_neg (by omega)]

end Sys2Proof.Machine

/-! The strikes of a head: what the start and the end of a booked strike change, the two ink notices of
a fired strike, and the statement about them (R121 to R123). -/

namespace Sys2Proof.Machine

/-! ### The steps (R121, R123) -/

section Steps

variable {s : State} {l : Lane} {h : HeadId} {tag : Tag} {k : Strike}

theorem strikeStart_next (hk : (s.head l h).strike? tag = some k) (ha : (s.lane l).active = true) (hs : k.started = false)
    (hr : reached (s.lane l).belt k.start = true) :
    exec (.strikeStart l h tag) s
      = .next (if (s.head l h).fault = true then s.suppressStrike l h k else s.fireStrike l h k) := by
  have hexec : exec (.strikeStart l h tag) s = execStrikeStart l h tag s := rfl
  rw [hexec, execStrikeStart, hk]
  simp only [ha, hs, hr, Bool.not_false, Bool.and_self, if_true]

theorem strikeEnd_next (hk : (s.head l h).strike? tag = some k) (ha : (s.lane l).active = true) (hs : k.started = true)
    (hr : reached (s.lane l).belt k.stop = true) :
    exec (.strikeEnd l h tag) s
      = .next (s.modHead l h fun x => { x with booking := x.booking.filter fun k => !(k.tag == tag) }) := by
  have hexec : exec (.strikeEnd l h tag) s = execStrikeEnd l h tag s := rfl
  rw [hexec, execStrikeEnd, hk]
  simp only [ha, hs, hr, Bool.and_self, if_true]

end Steps

/-! ### What a taken strike changes in its lane (R121) -/

/-- A head, a record and the counters of one lane changed are one change of the lane. -/
theorem State.headPieceCount_eq (s : State) (l : Lane) (h : HeadId) (tag : Tag) (f : Head → Head) (g : Piece → Piece)
    (c : LaneCounters → LaneCounters) :
    ((s.modHead l h f).modPiece l tag g).count l c =
      s.modLane l fun y =>
        { y with
          heads := y.heads.set h (f (s.head l h)), list := modTagged tag g y.list, counters := c y.counters } := by
  have hhead : s.modHead l h f = s.modLane l fun y => { y with heads := y.heads.set h (f (s.head l h)) } := rfl
  simp only [hhead, State.modPiece, State.count_eq, State.modLane_modLane, LaneS.count]

/-- The part after a strike has fired, before its ink is tested (R121). -/
def State.fired (s : State) (l : Lane) (h : HeadId) (k : Strike) : State :=
  s.modLane l fun y =>
    { y with
      heads := y.heads.set h (Head.fire k (s.head l h))
      list := modTagged k.tag (fun q => { q with cancel := .struck }) y.list
      counters := { y.counters with strikes := satInc Config.max32 y.counters.strikes } }

theorem State.fired_head (s : State) (l : Lane) (h : HeadId) (k : Strike) :
    (s.fired l h k).head l h = Head.fire k (s.head l h) := by
  rw [State.head, State.fired, State.modLane_lane, PerHead.get_set]

theorem State.fireStrike_eq (s : State) (l : Lane) (h : HeadId) (k : Strike) :
    s.fireStrike l h k = ((s.fired l h k).testInkLow l h (s.head l h).units).testInkOut l h := by
  rw [State.fireStrike, State.headPieceCount_eq]
  rfl

theorem State.suppressStrike_eq (s : State) (l : Lane) (h : HeadId) (k : Strike) :
    s.suppressStrike l h k =
      s.modLane l fun y =>
        { y with
          heads := y.heads.set h (Head.suppress k (s.head l h))
          list := modTagged k.tag Piece.faulted y.list
          counters := { y.counters with suppressed := satInc Config.max32 y.counters.suppressed } } :=
  State.headPieceCount_eq ..

/-! ### The ink notices of a fired strike (R122) -/

/-- A test that raises a latch with a notice of the ink class, or nothing, leaves the lanes, the tables
and the reservations. -/
theorem inkRaised_keeps (c : Prop) [Decidable c] (u : State) (bits : BitVec 11) :
    (if c then (u.withLatches bits).announced .ink else u).lanes = u.lanes
      ∧ (if c then (u.withLatches bits).announced .ink else u).store = u.store
      ∧ (if c then (u.withLatches bits).announced .ink else u).reports.reserved = u.reports.reserved := by
  unfold State.announced
  split
  · split <;> exact ⟨rfl, rfl, rfl⟩
  · exact ⟨rfl, rfl, rfl⟩

section Effects

variable {s t u : State} {r : List OutFrame} {a : Lane → List OutFrame}

/-- One of two operations, the one of the test adding frames to what the other sends. -/
theorem Effect.ite {t' u' : State} {r' : List OutFrame} (c : Prop) [Decidable c] (h' : Effect s t' u' (r ++ r') a)
    (h : Effect s t u r a) : Effect s (if c then t' else t) (if c then u' else u) (r ++ if c then r' else []) a := by
  by_cases hc : c
  · simpa only [if_pos hc] using h'
  · simpa only [if_neg hc, List.append_nil] using h

theorem Effect.head_eq (h : Effect s t u r a) (l : Lane) (k : HeadId) : t.head l k = u.head l k := by
  rw [State.eq_withTraffic h.quiet]
  rfl

theorem Effect.dieHead_eq (h : Effect s t u r a) (l : Lane) (k : HeadId) : t.dieHead l k = u.dieHead l k := by
  rw [State.eq_withTraffic h.quiet]
  rfl

/-- A latch and a notice after an operation (R24, R29). -/
theorem Effect.thenLatchedNotice (h : Effect s t u r a) (hs : t.Slots 1) (x : Latch) (k : NoticeClass) (m : NoticeMsg) :
    Effect s ((t.setLatch x).notice k m) ((u.withLatches (BitVec.ofNat 11 (2 ^ x.bit))).announced k)
      (r ++ u.announcement k m) a :=
  (h.thenLatches (BitVec.ofNat 11 (2 ^ x.bit))).thenNotice hs k m

/-- INK LOW after an operation that leaves the units at `n` (R122). -/
theorem Effect.thenInkLow (h : Effect s t u r a) (hs : t.Slots 1) {l : Lane} {k : HeadId} (before : Nat) {n low : Nat}
    (hn : (u.head l k).units = n) (hlow : (u.dieHead l k).inkLow = low) :
    Effect s (t.testInkLow l k before) (if low ≤ before ∧ n < low then (u.withLatches 0x080#11).announced .ink else u)
      (r ++ if low ≤ before ∧ n < low then u.announcement .ink (.inkLow l k n low) else []) a := by
  subst hn hlow
  rw [State.testInkLow, h.head_eq, h.dieHead_eq]
  exact .ite _ (h.thenLatchedNotice hs .inkLow .ink _) h

/-- INK OUT after an operation that leaves the units at `n` (R122). -/
theorem Effect.thenInkOut (h : Effect s t u r a) (hs : t.Slots 1) {l : Lane} {k : HeadId} {n cost : Nat} {ink : Bool}
    (hn : (u.head l k).units = n) (hink : (u.head l k).ink = ink) (hcost : (u.dieHead l k).inkCost = cost) :
    Effect s (t.testInkOut l k)
      (if n < cost ∧ ink = false then
        ((u.modHead l k fun y => { y with ink := true }).withLatches 0x100#11).announced .ink
      else u)
      (r ++ if n < cost ∧ ink = false then u.announcement .ink (.inkOut l k n cost) else []) a := by
  subst hn hink hcost
  rw [State.testInkOut, h.head_eq, h.dieHead_eq]
  exact .ite _ ((h.thenLane l _).thenLatchedNotice hs .inkOut .ink _) h

end Effects

/-- A fired strike: the lane's changes, then INK LOW and INK OUT as the units left ask for them
(R121, R122). -/
theorem fireStrike_effect {s : State} (hf : s.FramesFiled) (hs : s.Slots 2) (l : Lane) (h : HeadId) (k : Strike) :
    let x := s.head l h
    let after := x.units - k.cost
    let low := (s.dieHead l h).inkLow
    let cost := (s.dieHead l h).inkCost
    let v :=
      if low ≤ x.units ∧ after < low then ((s.fired l h k).withLatches 0x080#11).announced .ink else s.fired l h k
    Effect s (s.fireStrike l h k)
      (if after < cost ∧ x.ink = false then
        ((v.modHead l h fun y => { y with ink := true }).withLatches 0x100#11).announced .ink
      else v)
      ((if low ≤ x.units ∧ after < low then (s.fired l h k).announcement .ink (.inkLow l h after low) else [])
        ++ if after < cost ∧ x.ink = false then v.announcement .ink (.inkOut l h after cost) else [])
      noActs := by
  intro x after low cost v
  obtain ⟨hlanes, hstore, hreserved⟩ := inkRaised_keeps (low ≤ x.units ∧ after < low) (s.fired l h k) 0x080#11
  have hhead : v.head l h = Head.fire k x := by
    rw [← s.fired_head, State.head, State.lane, hlanes]
    rfl
  have hdie : v.dieHead l h = s.dieHead l h := by
    rw [State.dieHead, hstore]
    rfl
  have hfired : Effect s (s.fired l h k) (s.fired l h k) [] noActs := .modLane hf ..
  have hfree : (s.fired l h k).Slots 1 := hfired.slotsLeft hs rfl (by simp)
  have hlow := hfired.thenInkLow hfree x.units (n := after) (low := low) (by rw [State.fired_head]; rfl) rfl
  rw [List.nil_append] at hlow
  have hleft : ((s.fired l h k).testInkLow l h x.units).Slots 1 := by
    refine hlow.slotsLeft hs hreserved ?_
    have hsent := announcement_length (s.fired l h k) .ink (.inkLow l h after low)
    split
    · omega
    · exact Nat.le_succ 1
  rw [State.fireStrike_eq]
  exact hlow.thenInkOut hleft (by rw [hhead]; rfl) (by rw [hhead]; rfl) (by rw [hdie])

/-- Settles O31: the start of a strike fires or suppresses it by the FAULT inhibit, and its end removes
it. -/
theorem strikesFireOrAreSuppressed : Obligations.StrikesFireOrAreSuppressed := by
  intro s l h k hk hactive x after low cost taken
  refine ⟨fun hstarted hreached => ⟨fun hfault hfiled hslots => ?fires, fun hfault => ?suppressed⟩,
    fun hstarted hreached => ?ends⟩
  case fires =>
    refine (fireStrike_effect hfiled hslots l h k).gives ?_
    rw [strikeStart_next hk hactive hstarted hreached, if_neg (Bool.eq_false_iff.1 hfault)]
  case suppressed =>
    rw [strikeStart_next hk hactive hstarted hreached, if_pos hfault, State.suppressStrike_eq]
    rfl
  case ends =>
    rw [strikeEnd_next hk hactive hstarted hreached]
    simp only [ne_eq, decide_not, beq_eq_decide]

end Sys2Proof.Machine

/-! SWEEP_START and SWEEP_DONE: how their argument is read, what each completion answers, and the
statement about both (R140, R141). -/

namespace Sys2Proof.Machine

/-- A lane and a pocket are read from their numbers as themselves (R174). -/
theorem pocketArgs_valid (l : Lane) (k : Fin 10) : pocketArgs [byte (laneNat l), byte k.val] = .valid (l, k) := by
  have hk : below 10 (byte k.val).toNat = some k := below_eq_some.2 (byte_toNat (by omega))
  simp [pocketArgs, inRange, hk]

section Completions

variable {s : State} {c : Cmd} {l : Lane} {k : Fin 10}

/-! ### SWEEP_START (R140) -/

/-- A pocket that takes pieces is closed, and the state it enters is answered with its inbound. -/
theorem sweepStart_closes (he : Executing s 0x28 c) (ha : pocketArgs c.args = .valid (l, k))
    (hx : (s.pocket l k).state = .opened ∨ (s.pocket l k).state = .full) :
    Completes .sweepStart s c (s.modPocket l k fun y => { y with state := (s.pocket l k).sweepState }) .done
      [byte (s.pocket l k).sweepState.toNat, byte (s.pocket l k).inbound] := by
  refine .of_next he ((completion_next he ha).trans ?_)
  obtain hx | hx := hx <;> (simp only [hx]; rfl)

/-- A pocket already in a sweep is left alone. -/
theorem sweepStart_refused (he : Executing s 0x28 c) (ha : pocketArgs c.args = .valid (l, k))
    (hx : (s.pocket l k).state = .sweepWait ∨ (s.pocket l k).state = .sweep) :
    Completes .sweepStart s c s .wrongState [] := by
  refine .of_next he ((completion_next he ha).trans ?_)
  obtain hx | hx := hx <;> simp only [hx]

/-! ### SWEEP_DONE (R141) -/

/-- A pocket not in SWEEP is left alone. -/
theorem sweepDone_refused (he : Executing s 0x29 c) (ha : pocketArgs c.args = .valid (l, k))
    (hx : (s.pocket l k).state ≠ .sweep) : Completes .sweepDone s c s .wrongState [] := by
  refine .of_next he ((completion_next he ha).trans ?_)
  cases h : (s.pocket l k).state with
  | opened | full | sweepWait => rfl
  | sweep => exact absurd h hx

/-- A pocket changed after a notice: up to the outbound traffic, the notice did what `noted` says (R24). -/
theorem notice_modPocket_quiet (hf : s.FramesFiled) (n : NoticeClass) (m : NoticeMsg) (f : Pocket → Pocket) :
    ((s.notice n m).modPocket l k f).quiet = ((s.noted n).modPocket l k f).quiet := by
  obtain ⟨hquiet, -⟩ := State.notice_spec hf n m
  rw [State.eq_withTraffic hquiet]
  rfl

/-- A pocket in SWEEP is emptied after its TRAY notice, and the same tray record is answered, whether
or not the notice found a slot. -/
theorem sweepDone_empties (he : Executing s 0x29 c) (ha : pocketArgs c.args = .valid (l, k))
    (hx : (s.pocket l k).state = .sweep) :
    CompletesAfter .sweepDone s c (s.noticeFrames .tray (.tray ((s.pocket l k).tray l k)))
      ((s.noted .tray).modPocket l k Pocket.emptied) .done (trayBytes ((s.pocket l k).tray l k)) := by
  have hnext : exec .sweepDone s =
      .next (((s.notice .tray (.tray ((s.pocket l k).tray l k))).modPocket l k Pocket.emptied).complete c .done
        (trayBytes ((s.pocket l k).tray l k))) := by
    refine (completion_next he ha).trans ?_
    simp only [hx]
  obtain ⟨-, hreports, hacts, hpass, hfiled⟩ := State.notice_spec he.filed .tray (.tray ((s.pocket l k).tray l k))
  exact .of_next hnext (notice_modPocket_quiet he.filed ..) hreports hacts hpass ⟨hfiled.act, hfiled.reports⟩

end Completions

/-- Settles O43: each clause is the completion of its command in the states it names. -/
theorem sweepsCloseAndEmptyPockets : Obligations.SweepsCloseAndEmptyPockets := by
  refine ⟨fun s c l k he ha => ?start, fun s c l k he ha => ?done⟩
  case start =>
    have harg := ha ▸ pocketArgs_valid l k
    exact ⟨sweepStart_closes he harg, sweepStart_refused he harg⟩
  case done =>
    have harg := ha ▸ pocketArgs_valid l k
    exact ⟨sweepDone_refused he harg, sweepDone_empties he harg⟩

end Sys2Proof.Machine

/-! TABLE_ABANDON, TABLE_STATUS_CLEAR, TABLE_SUSPEND, TABLE_RESUME and TABLE_LOCK: what each completion
answers in the states of the store, and the statement about all five (R163, R166, R169, R171). -/

namespace Sys2Proof.Machine

section Completions

variable {s : State} {c : Cmd} {p : Programming} {mark : Bool} {t : Table}

/-! ### TABLE_ABANDON (R166) -/

/-- An open write is discarded: the store returns to the state the write was opened from. -/
theorem tableAbandon_discards {w : Staged} (he : Executing s 0x3B c) (ha : noArgs c.args = .valid ())
    (hw : s.store.phase.open? = some w) :
    Completes .tableAbandon s c (s.setPhase s.store.phase.discarded) .done [] := by
  refine .of_next he ((completion_next he ha).trans ?_)
  simp only [hw]
  rfl

/-- Without an open write there is nothing to discard. -/
theorem tableAbandon_refused (he : Executing s 0x3B c) (ha : noArgs c.args = .valid ())
    (hw : s.store.phase.open? = none) : Completes .tableAbandon s c s .wrongState [] := by
  refine .of_next he ((completion_next he ha).trans ?_)
  simp only [hw]

/-! ### TABLE_STATUS_CLEAR (R163) -/

/-- The flags are answered as they stood before they become clear, in every state of the store. -/
theorem tableStatusClear_completes (he : Executing s 0x3C c) (ha : noArgs c.args = .valid ()) :
    Completes .tableStatusClear s c { s with store := { s.store with flags := 0 } } .done [byte s.store.flags.toNat] :=
  .of_next he (completion_next he ha)

/-! ### TABLE_SUSPEND (R169) -/

/-- The outer write that is programming is marked, whether or not the mark was set before. -/
theorem tableSuspend_marks (he : Executing s 0x3D c) (ha : noArgs c.args = .valid ())
    (hp : s.store.phase = .programming p mark) :
    Completes .tableSuspend s c (s.setPhase (.programming p true)) .done [] := by
  refine .of_next he ((completion_next he ha).trans ?_)
  simp only [hp]
  rfl

/-- Only an outer write that is programming can be suspended. -/
theorem tableSuspend_refused (he : Executing s 0x3D c) (ha : noArgs c.args = .valid ())
    (hp : ∀ p mark, s.store.phase ≠ .programming p mark) : Completes .tableSuspend s c s .wrongState [] := by
  refine .of_next he ((completion_next he ha).trans ?_)
  cases h : s.store.phase with
  | programming p mark => exact absurd h (hp p mark)
  | ready | staging | suspended | nestedStaging | nestedProgramming => rfl

/-! ### TABLE_RESUME (R169) -/

/-- A suspended write goes on, without a mark. -/
theorem tableResume_resumes (he : Executing s 0x3E c) (ha : noArgs c.args = .valid ())
    (hp : s.store.phase = .suspended p) :
    Completes .tableResume s c (s.setPhase (.programming p false)) .done [] := by
  refine .of_next he ((completion_next he ha).trans ?_)
  simp only [hp]
  rfl

/-- What TABLE_RESUME is refused with: a nested write bars it, and elsewhere nothing is suspended. -/
def Phase.resumeRefusal? : Phase → Option ResponseCode
  | .suspended _ => none
  | .nestedStaging _ _ | .nestedProgramming _ _ => some .nestedBusy
  | .ready | .staging _ | .programming _ _ => some .wrongState

/-- A refused TABLE_RESUME leaves the part alone. -/
theorem tableResume_refused {rc : ResponseCode} (he : Executing s 0x3E c) (ha : noArgs c.args = .valid ())
    (hrc : s.store.phase.resumeRefusal? = some rc) : Completes .tableResume s c s rc [] := by
  refine .of_next he ((completion_next he ha).trans ?_)
  cases h : s.store.phase with
  | suspended => simp [h, Phase.resumeRefusal?] at hrc
  | ready | staging | programming | nestedStaging | nestedProgramming =>
    obtain rfl := Option.some.inj (h ▸ hrc)
    rfl

/-! ### TABLE_LOCK (R171) -/

/-- The number of a lockable table is read as that table (R161, R174). -/
theorem lockArg_valid (ht : t.lockable) : lockArg [byte t.toNat] = .valid t := by
  simp [lockArg, inRange, Option.filter, ht]

/-- The lock of a lockable table is set, and the two other locks stay as they stood. -/
theorem Store.lock_of_lockable (k : Store) (ht : t.lockable) :
    k.lock t =
      { k with
        lockInk := k.lockInk || decide (t = .ink), lockGeometry := k.lockGeometry || decide (t = .geometry)
        lockDie := k.lockDie || decide (t = .die) } := by
  cases t with
  | ink | geometry | die => simp [Store.lock]
  | signature | stacker | monitor => exact absurd ht (by decide)

/-- A table that no open write bars becomes locked. -/
theorem tableLock_locks (he : Executing s 0x3F c) (ha : lockArg c.args = .valid t)
    (hb : s.store.phase.barsLock t = false) : Completes .tableLock s c { s with store := s.store.lock t } .done [] := by
  refine .of_next he ((completion_next he ha).trans ?_)
  simp only [hb]
  rfl

/-- A state of the store that bars the lock leaves the part alone. -/
theorem tableLock_refused (he : Executing s 0x3F c) (ha : lockArg c.args = .valid t)
    (hb : s.store.phase.barsLock t = true) : Completes .tableLock s c s .tableBusy [] := by
  refine .of_next he ((completion_next he ha).trans ?_)
  simp only [hb, if_true]

end Completions

/-- Settles O51: each clause is the completion of its command in each state of the store. -/
theorem tableCommandsMoveTheStore : Obligations.TableCommandsMoveTheStore := by
  intro s c at'
  refine ⟨fun he ha => ?abandon, fun he ha => ?clear, fun he ha => ?suspend, fun he ha => ?resume,
    fun t he ha ht => ?lock⟩
  case abandon =>
    have harg : noArgs c.args = .valid () := ha ▸ rfl
    cases hp : s.store.phase with
    | staging w | nestedStaging p w =>
      have h := tableAbandon_discards (w := w) he harg (by rw [hp]; rfl)
      rw [hp] at h
      exact h
    | ready | programming | suspended | nestedProgramming => exact tableAbandon_refused he harg (by rw [hp]; rfl)
  case clear => exact tableStatusClear_completes he (ha ▸ rfl)
  case suspend =>
    have harg : noArgs c.args = .valid () := ha ▸ rfl
    cases hp : s.store.phase with
    | programming p mark => exact tableSuspend_marks he harg hp
    | ready | staging | suspended | nestedStaging | nestedProgramming =>
      exact tableSuspend_refused he harg (by simp [hp])
  case resume =>
    have harg : noArgs c.args = .valid () := ha ▸ rfl
    cases hp : s.store.phase with
    | suspended p => exact tableResume_resumes he harg hp
    | ready | staging | programming | nestedStaging | nestedProgramming =>
      exact tableResume_refused he harg (by rw [hp]; rfl)
  case lock =>
    have hlockable : t.lockable := by obtain rfl | rfl | rfl := ht <;> rfl
    have harg := ha ▸ lockArg_valid hlockable
    have hlocks := tableLock_locks he harg
    rw [Store.lock_of_lockable s.store hlockable] at hlocks
    cases hp : s.store.phase with
    | ready => exact hlocks (by rw [hp]; rfl)
    | suspended p =>
      exact ⟨fun hne => hlocks (by rw [hp]; exact beq_false_of_ne hne),
        fun heq => tableLock_refused he harg (by rw [hp]; exact beq_of_eq heq)⟩
    | staging | programming | nestedStaging | nestedProgramming => exact tableLock_refused he harg (by rw [hp]; rfl)

end Sys2Proof.Machine

/-! What a step can do: every step is a chain of moves of the outbound side, of the Table Store and of
single lanes, each with the guard under which it is made. -/

namespace Sys2Proof.Machine

/-! ### What a move leaves as it was -/

/-- A record with its identity, its decision, its pocket and its disposition as they were. -/
structure Piece.Kept (p q : Piece) : Prop where
  tag : q.tag = p.tag
  lead : q.lead = p.lead
  decisionTaken : q.decisionTaken = p.decisionTaken
  pocketTaken : q.pocketTaken = p.pocketTaken
  pocket : q.pocket = p.pocket
  disposition : p.disposition.isSome = true → q.disposition.isSome = true

/-- A kept record with its length and scan state as they were, too. -/
structure Piece.Alike (p q : Piece) : Prop extends p.Kept q where
  length : q.length = p.length
  scan : q.scan = p.scan

/-- A head with the same bookings; its units may have been refilled (R125). -/
structure Head.Alike (x y : Head) : Prop where
  booking : y.booking = x.booking
  freePos : y.freePos = x.freePos
  reserved : y.reserved = x.reserved
  units : x.reserved ≤ x.units → y.reserved ≤ y.units

/-- A pocket with the same records on their way to it; its tray may have been taken (R141). -/
structure Pocket.Alike (x y : Pocket) : Prop where
  inbound : y.inbound = x.inbound
  count : y.count ≤ x.count
  waits : y.state = .sweepWait → x.state = .sweepWait ∨ 0 < x.inbound

/-- A lane with its state, tags, rate, bookings, pockets, counts and rings as they were, and every record kept. -/
structure LaneS.Kept (x y : LaneS) : Prop where
  state : y.state = x.state
  nextTag : y.nextTag = x.nextTag
  monitors : y.monitors = x.monitors
  feedRate : y.feedRate = x.feedRate
  idle : y.eye = .idle ↔ x.eye = .idle
  window : y.window = none ↔ x.window = none
  forwardMark : y.forwardMark = none ↔ x.forwardMark = none
  list : List.Forall₂ Piece.Kept x.list y.list
  heads : ∀ h, (x.heads.get h).Alike (y.heads.get h)
  pockets : ∀ k, (x.pockets.get k).Alike (y.pockets.get k)
  captured : y.counters.captured = x.counters.captured
  dispositions : y.counters.dispositions = x.counters.dispositions
  rings : y.rings = x.rings

/-- A kept lane with the scans of its records as they were, too, and not newly COVERED. -/
structure LaneS.Alike (x y : LaneS) : Prop extends x.Kept y where
  covered : ∀ st, y.eye = .covered st → x.eye = .covered st
  alike : List.Forall₂ Piece.Alike x.list y.list

theorem Piece.Kept.refl (p : Piece) : p.Kept p := ⟨rfl, rfl, rfl, rfl, rfl, id⟩

theorem Piece.Kept.trans {p q r : Piece} (h : p.Kept q) (h' : q.Kept r) : p.Kept r :=
  ⟨h'.tag.trans h.tag, h'.lead.trans h.lead, h'.decisionTaken.trans h.decisionTaken, h'.pocketTaken.trans h.pocketTaken,
    h'.pocket.trans h.pocket, fun hp => h'.disposition (h.disposition hp)⟩

theorem Piece.Alike.refl (p : Piece) : p.Alike p := ⟨.refl p, rfl, rfl⟩

theorem Head.Alike.refl (x : Head) : x.Alike x := ⟨rfl, rfl, rfl, id⟩

theorem Head.Alike.trans {x y z : Head} (h : x.Alike y) (h' : y.Alike z) : x.Alike z :=
  ⟨h'.booking.trans h.booking, h'.freePos.trans h.freePos, h'.reserved.trans h.reserved, fun hx => h'.units (h.units hx)⟩

theorem Pocket.Alike.refl (x : Pocket) : x.Alike x := ⟨rfl, Nat.le_refl _, .inl⟩

theorem Pocket.Alike.trans {x y z : Pocket} (h : x.Alike y) (h' : y.Alike z) : x.Alike z :=
  ⟨h'.inbound.trans h.inbound, h'.count.trans h.count, fun hz => (h'.waits hz).elim h.waits fun hy => .inr (h.inbound ▸ hy)⟩

theorem forall₂_trans {α : Type} {R : α → α → Prop} (hR : ∀ a b c, R a b → R b c → R a c) {xs ys zs : List α}
    (h : List.Forall₂ R xs ys) (h' : List.Forall₂ R ys zs) : List.Forall₂ R xs zs := by
  induction h generalizing zs with
  | nil => exact h'
  | cons h1 _ ih =>
    cases h' with
    | cons h2 h3 => exact .cons (hR _ _ _ h1 h2) (ih h3)

theorem forall₂_kept_refl (ps : List Piece) : List.Forall₂ Piece.Kept ps ps := List.forall₂_same.2 fun p _ => .refl p

theorem forall₂_alike_refl (ps : List Piece) : List.Forall₂ Piece.Alike ps ps := List.forall₂_same.2 fun p _ => .refl p

theorem LaneS.Kept.refl (x : LaneS) : x.Kept x where
  state := rfl
  nextTag := rfl
  monitors := rfl
  feedRate := rfl
  idle := .rfl
  window := .rfl
  forwardMark := .rfl
  list := forall₂_kept_refl _
  heads _ := .refl _
  pockets _ := .refl _
  captured := rfl
  dispositions := rfl
  rings := rfl

theorem LaneS.Kept.trans {x y z : LaneS} (h : x.Kept y) (h' : y.Kept z) : x.Kept z where
  state := h'.state.trans h.state
  nextTag := h'.nextTag.trans h.nextTag
  monitors := h'.monitors.trans h.monitors
  feedRate := h'.feedRate.trans h.feedRate
  idle := h'.idle.trans h.idle
  window := h'.window.trans h.window
  forwardMark := h'.forwardMark.trans h.forwardMark
  list := forall₂_trans (fun _ _ _ h1 h2 => h1.trans h2) h.list h'.list
  heads k := (h.heads k).trans (h'.heads k)
  pockets k := (h.pockets k).trans (h'.pockets k)
  captured := h'.captured.trans h.captured
  dispositions := h'.dispositions.trans h.dispositions
  rings := h'.rings.trans h.rings

theorem LaneS.Alike.refl (x : LaneS) : x.Alike x := ⟨.refl x, fun _ => id, forall₂_alike_refl _⟩

/-- Kept records carry the tags that they carried. -/
theorem kept_tags {ps qs : List Piece} (h : List.Forall₂ Piece.Kept ps qs) : qs.map Piece.tag = ps.map Piece.tag := by
  induction h with
  | nil => rfl
  | cons h1 _ ih => simp [h1.tag, ih]

/-- The part as a move leaves it that touches nothing the invariants read. -/
structure State.Aside (s t : State) : Prop where
  fifo : t.link.fifo = s.link.fifo
  act : t.link.act = s.link.act
  sending : t.link.sending = s.link.sending
  queued : t.reports.queued = s.reports.queued
  reserved : t.reports.reserved = s.reports.reserved
  batch : t.reports.batch = s.reports.batch
  batchLevel : t.reports.batchLevel = s.reports.batchLevel
  mask : t.reports.mask = s.reports.mask
  interp : t.interp = s.interp
  lanes : t.lanes = s.lanes
  waitList : t.scan.waitList = s.scan.waitList
  scorer : t.scorer = s.scorer
  phase : t.store.phase = s.store.phase
  tables : t.store.tables = s.store.tables
  pending : t.pending = s.pending

/-! ### Moves of the outbound side -/

/-- A move of the outbound side, the Report Queue or the Command Interpreter. -/
inductive Outer : State → State → Prop
  | aside {s t} (h : s.Aside t) : Outer s t
  | joinAct {s l} (m : ActMsg) (h : (s.link.act.get l).length < 8) : Outer s (s.joinAct l m)
  | emptyAct (s : State) (l : Lane) : Outer s (s.emptyAct l)
  | offer (s : State) (unit : List Byte) : Outer s (s.offer unit)
  | postNotice (s : State) (d : Station) (m : NoticeMsg) : Outer s (s.postNotice d m)
  | closeBatch (s : State) : Outer s s.closeBatch
  | appendReport (s : State) (r : PieceReport) : Outer s (s.appendReport r)
  | sent (s : State) : Outer s { s with link := { s.link with sending := none } }.arbitrate
  | complete {s c} (rc : ResponseCode) (d : List Byte) (h : s.interp.executing = some c) : Outer s (s.complete c rc d)
  | take {s : State} {c : Cmd} {cs : List Cmd} (h : s.interp.executing = none) (hq : s.interp.queue = c :: cs) :
    Outer s { s with interp := { queue := cs, executing := some c } }
  | accept {s} (c : Cmd) (h : s.canAccept = true) : Outer s (s.accept c)
  | setMask {s} (m : BitVec 8) (h : pieceOn m = false → s.pieceReporting = false ∨ s.reports.batch = []) :
    Outer s (s.setMask m)
  | setPieceReport {s level} (on : Bool) (h : on = false → s.pieceReporting = false ∨ s.reports.batch = [])
    (hl : 1 ≤ level ∧ level ≤ 8) : Outer s (s.setPieceReport on level).closeWhenFull
  | answerReset {s} (c : Cmd) (h : s.slotFree = true) : Outer s (s.answerReset c)

/-! ### Moves of the Table Store -/

/-- An open write holds no more entries than its count, which is 32 at most (R164, R165). -/
def Phase.Bounded (p : Phase) : Prop := ∀ w, p.open? = some w → w.received.length ≤ w.count ∧ w.count ≤ 32

/-- The entry that the programming write applies next (R168). -/
def Phase.next? : Phase → Option Entry
  | .programming p _ => p.todo.head?
  | .nestedProgramming _ q => q.todo.head?
  | .ready | .staging _ | .suspended _ | .nestedStaging _ _ => none

/-- The tables with one entry entered; a level pair is held at what its pocket holds (R132, R168). -/
def State.enterEntry (s : State) : Entry → State
  | .levels l k v => s.modTables (Tables.modStacker l (Stacker.withLevels k (heldLevels (s.pocket l k) v)))
  | e => s.applyEntry e

/-- The Signature Table is as an applied PUT or DROP leaves it (R93). -/
def Entry.Entered (t : List SigEntry) : Entry → Prop
  | .put e => ∃ d ∈ t, d.key = e.key
  | .drop k => ∀ d ∈ t, d.key ≠ k
  | _ => True

/-- The write goes on past an entry that has been applied, or ends with its commit's response (R22,
R168, R169). -/
def State.pastEntry (s : State) : State :=
  match s.store.phase with
  | .programming p mark => (s.setPhase (.afterEntry mark (p.advance p.todo.tail))).finishWrite (p.advance p.todo.tail)
  | .nestedProgramming p q =>
    (s.setPhase (if q.todo.tail.isEmpty then .suspended p else .nestedProgramming p (q.advance q.todo.tail))).finishWrite
      (q.advance q.todo.tail)
  | .ready | .staging _ | .suspended _ | .nestedStaging _ _ => s

/-- A move of the Table Store. -/
inductive StoreMove : State → State → Prop
  | enter {s e} (h : s.store.phase.next? = some e) : StoreMove s (s.enterEntry e)
  | past {s e} (h : s.store.phase.next? = some e) (he : e.Entered s.store.tables.signature) : StoreMove s s.pastEntry
  | phase {s} (p : Phase) (commits : p.commits = s.store.phase.commits) (outer : p.outerTodo = s.store.phase.outerTodo)
    (nested : p.nestedTodo = s.store.phase.nestedTodo)
    (table : s.store.phase.nestedTable ≠ some .signature → p.nestedTable ≠ some .signature)
    (bounded : s.store.phase.Bounded → p.Bounded) : StoreMove s (s.setPhase p)
  | commit {s c w es} (h : s.interp.executing = some c) (hw : s.store.phase.open? = some w)
    (he : s.checkCommit w = .passes es) : StoreMove s (s.beginProgramming c w es)

/-! ### Moves of a lane -/

/-- The hand-offs of a retirement but for the piece report (R60). -/
def State.handOff (s : State) (l : Lane) (way : Way) (p : Piece) : State :=
  let q := retired way p
  (((s.modLane l (LaneS.drop p.tag)).countRetired l way q).pocketRetired l way q).windowRetired l way q

/-- Every record of a list handed off, oldest first, without the piece reports (R59, R61). -/
def State.handOffAll (s : State) (l : Lane) (way : Way) : State :=
  (s.lane l).list.foldl (fun s p => s.handOff l way p) s

/-- The part at a record's decision point: the point taken, and the record's scan settled (R74, R104). -/
def State.atDecision (s : State) (l : Lane) (tag : Tag) : State :=
  (s.modPiece l tag fun q => { q with decisionTaken := true }).settleScan l tag

/-- The steps that can jam a lane (R57). -/
def canJam (l : Lane) : Instr → Prop
  | .beltStep m f => m = l ∧ f = false
  | .coveredLimit m | .leadingEdge m | .trailingEdge m | .windowEnd m => m = l
  | .decisionPoint m _ | .pocketPoint m _ | .retirement m _ => m = l
  | .actStatusFrame _ | .laneStart | .laneStop => True
  | _ => False

/-- The steps that can stop a lane that has drained (R48). -/
def canDrain (l : Lane) : Instr → Prop
  | .retirement m _ | .trailingEdge m => m = l
  | .laneStop => True
  | _ => False

/-- A move of one lane or of Scan Capture and the Corner Scorer, made by a step. The first and the second
`Option Lane` name the lane whose feed rate waits to be worked out afresh, before and after the move. -/
inductive LaneMove (i : Instr) : Option Lane → State → Option Lane → State → Prop
  | alike {a s l} (f : LaneS → LaneS) (h : (s.lane l).Alike (f (s.lane l))) : LaneMove i a s a (s.modLane l f)
  | rate {a l} (s : State) (h : a = none ∨ a = some l) : LaneMove i a s none (s.modLane l LaneS.rated)
  | file {a} (s : State) (l : Lane) (b : Band) (q : Pos) (x : Sample) : LaneMove i a s a (s.modLane l (LaneS.file b q x))
  | capture {s l} (hi : i = .leadingEdge l) (h : (s.lane l).canCapture = true) :
    LaneMove i none s (some l) (s.modLane l LaneS.capture)
  | reopen {a s l p h} (hp : s.newest? l = some p) (hd : p.decisionTaken = false) (he : (s.lane l).eye = .gapHold h true) :
    LaneMove i a s a (s.reopen l p)
  | measure {a s l p st} (n : Nat) (hp : s.newest? l = some p) (he : (s.lane l).eye = .covered st) :
    LaneMove i a s a (s.modLane l fun x =>
      { x with
        eye := .gapHold (advance x.belt (s.geometry l).minGap) true
        list := modTagged p.tag (Piece.measured (s.geometry l) n) x.list })
  | abandon {a} (s : State) (l : Lane) (tag : Tag) : LaneMove i a s a (s.abandonScan l tag)
  | ask {a s l p tag} (hp : s.piece? l tag = some p) (hs : p.scan = .collecting) (hn : p.length.isSome = true) :
    LaneMove i a s a (s.askSlot l tag)
  | askReady {a} (s : State) (l : Lane) : LaneMove i a s a (s.askReady l)
  | jam {a s l} (hi : canJam l i) (h : (s.lane l).active = true) :
    LaneMove i a s a ((s.modLane l LaneS.jammed).withdrawLane l)
  | retire {s l tag p} (hi : i = .retirement l tag) (hp : s.piece? l tag = some p) (hd : p.decisionTaken = true)
    (hk : p.pocketTaken = true) (hn : p.length.isSome = true) : LaneMove i none s (some l) (s.handOff l .ordinary p)
  | glitch {s l p st} (hi : i = .trailingEdge l) (hp : s.newest? l = some p) (he : (s.lane l).eye = .covered st)
    (hd : p.decisionTaken = false) :
    LaneMove i none s (some l) ((s.modLane l fun x => { x with eye := .armed }).handOff l .glitch p)
  | clear {a s l} (hi : i = .jamClear) (h : (s.lane l).state = .jammed) : LaneMove i a s a (s.handOffAll l .jamClear)
  | leaveJam {a s l} (hi : i = .jamClear) (h : (s.lane l).state = .jammed) (hl : (s.lane l).list = []) :
    LaneMove i a s a (s.modLane l fun x => { x with state := .stopped })
  | drain {a s l} (hi : canDrain l i) (h : (s.lane l).state = .draining) (hl : (s.lane l).list = []) :
    LaneMove i a s a (s.modLane l fun x => { x.atRest with state := .stopped })
  | stop {s l} (hi : i = .laneStop) (h : (s.lane l).state = .running) :
    LaneMove i none s (some l) (s.modLane l fun x => { x with state := .draining })
  | start {s l} (hi : i = .laneStart) (h : (s.lane l).state = .stopped) :
    LaneMove i none s (some l)
      (s.modLane l fun x => { LaneS.start (s.geometry l) s.store.tables.monitor x with state := .running })
  | resume {s l} (hi : i = .laneStart) (h : (s.lane l).state = .draining) :
    LaneMove i none s (some l) (s.modLane l fun x => { x with state := .running })
  | decide {a s l tag p q} (hi : i = .decisionPoint l tag) (hp : s.piece? l tag = some p)
    (hd : (s.lane l).decisionDue (s.geometry l) p = true)
    (hq : (s.atDecision l tag).piece? l tag = some q) :
    LaneMove i a s a ((s.atDecision l tag).settle l q ((s.atDecision l tag).decision l q))
  | fire {a s l h tag k} (hi : i = .strikeStart l h tag) (hk : (s.head l h).strike? tag = some k) (hs : k.started = false) :
    LaneMove i a s a (s.modHead l h (Head.fire k))
  | suppress {a s l h tag k} (hi : i = .strikeStart l h tag) (hk : (s.head l h).strike? tag = some k)
    (hs : k.started = false) : LaneMove i a s a (s.modHead l h (Head.suppress k))
  | endStrike {a s l h tag k} (hi : i = .strikeEnd l h tag) (hk : (s.head l h).strike? tag = some k)
    (hs : k.started = true) :
    LaneMove i a s a (s.modHead l h fun x => { x with booking := x.booking.filter fun k => !(k.tag == tag) })
  | passPocket {a s l tag p} (hp : s.piece? l tag = some p) : LaneMove i a s a (s.modPiece l tag Piece.atPocketPoint)
  | choose {a s l tag p k} (hp : s.piece? l tag = some p) (hk : p.pocketTaken = false)
    (hc : s.choose l (s.pocketList l p) = some k) :
    LaneMove i a s a
      (((s.modPiece l tag Piece.atPocketPoint).modPiece l p.tag fun q => { q with pocket := some k }).modPocket l k
        fun x => { x with inbound := x.inbound + 1 })
  | clearCounts {a} (s : State) (l : Lane) : LaneMove i a s a (s.modLane l LaneS.clearCounters)
  | judge {a s l} (m : MonitorId) (x : Monitor) (h : a = none ∨ a = some l) :
    LaneMove i a s (some l) (s.modLane l fun y => { y with monitors := y.monitors.set m x })
  | finish {a s j} (h : s.scorer.engine = some j) :
    LaneMove i a s a { s.scored j with scorer := { (s.scored j).scorer with engine := none } }.passSlotOn
  | takeJob {a} (s : State) : LaneMove i a s a s.takeJob

/-- Every block but the link at a line reset (R34, R35, R61). -/
def State.resetBlocks (s : State) : State := (((s.resetReports.resetStore).resetScan).resetLane .a).resetLane .b

/-- The part after power-on (R35; log entry 2). -/
def State.powered (s : State) : State :=
  { State.reset with
    lanes :=
      { a := { LaneS.initial with eyeCovered := s.lanes.a.eyeCovered }
        b := { LaneS.initial with eyeCovered := s.lanes.b.eyeCovered } }
    resetActive := s.resetActive, freeCount := s.freeCount, pending := s.pending }

/-- A move of a step. -/
inductive Move (i : Instr) : Option Lane → State → Option Lane → State → Prop
  | outer {a s t} (h : Outer s t) : Move i a s a t
  | store {a s t} (h : StoreMove s t) : Move i a s a t
  | lane {a s b t} (h : LaneMove i a s b t) : Move i a s b t
  | reset {a} (s : State) (hi : resets i = true) : Move i a s a s.resetBlocks
  | power {a} (s : State) (hi : resets i = true) : Move i a s a s.powered

/-- Moves one after another. -/
inductive Moves (i : Instr) : Option Lane → State → Option Lane → State → Prop
  | refl {a s} : Moves i a s a s
  | tail {a s b t c u} (h : Moves i a s b t) (m : Move i b t c u) : Moves i a s c u

end Sys2Proof.Machine

/-! Every operation that a step is made of is a chain of moves: the outbound side, jams, feed rates,
retirements and scans. -/

namespace Sys2Proof.Machine

/-! ### Chains -/

theorem Move.single {i : Instr} {a b : Option Lane} {s t : State} (m : Move i a s b t) : Moves i a s b t := .tail .refl m

theorem Moves.trans {i : Instr} {a b c : Option Lane} {s t u : State} (h : Moves i a s b t) (h' : Moves i b t c u) :
    Moves i a s c u := by
  induction h' with
  | refl => exact h
  | tail _ m ih => exact .tail ih m

/-- What every move keeps, a chain of moves keeps. -/
theorem Moves.keeps {i : Instr} {P : Option Lane → State → Prop} (hm : ∀ a s b t, Move i a s b t → P a s → P b t)
    {a b : Option Lane} {s t : State} (h : Moves i a s b t) (hs : P a s) : P b t := by
  induction h with
  | refl => exact hs
  | tail _ m ih => exact hm _ _ _ _ m ih

section Chains

variable {i : Instr} {a : Option Lane} {s t : State}

theorem Outer.moves (h : Outer s t) : Moves i a s a t := (Move.outer h).single

theorem StoreMove.moves (h : StoreMove s t) : Moves i a s a t := (Move.store h).single

theorem LaneMove.moves {b : Option Lane} (h : LaneMove i a s b t) : Moves i a s b t := (Move.lane h).single

theorem State.Aside.moves (h : s.Aside t) : Moves i a s a t := (Outer.aside h).moves

end Chains

/-! ### The outbound side does not see the lanes -/

/-- The part with other lanes and categories. -/
def State.withLanes (s : State) (ls : PerLane LaneS) (cs : Vector CategoryRecord 64) : State :=
  { s with lanes := ls, categories := cs }

/-- The part with another link and other reports. -/
def State.withOutside (s : State) (k : Link) (r : Reports) : State := { s with link := k, reports := r }

theorem State.eq_withOutside {s t : State} (hi : t.interp = s.interp) (hl : t.lanes = s.lanes) (hs : t.scan = s.scan)
    (hr : t.scorer = s.scorer) (hc : t.categories = s.categories) (hst : t.store = s.store) (hd : t.date = s.date)
    (ha : t.resetActive = s.resetActive) (hf : t.freeCount = s.freeCount) (hp : t.pending = s.pending) :
    t = s.withOutside t.link t.reports := by
  obtain ⟨_, _, _, _, _, _, _, _, _, _, _, _⟩ := t
  subst hi hl hs hr hc hst hd ha hf hp
  rfl

section Blind

variable (s : State) (ls : PerLane LaneS) (cs : Vector CategoryRecord 64)

theorem grantAct_withLanes (l : Lane) : (s.withLanes ls cs).grantAct l = (s.grantAct l).withLanes ls cs := by
  unfold State.grantAct
  rw [show (s.withLanes ls cs).link = s.link from rfl]
  split <;> rfl

theorem grantPass_withLanes : (s.withLanes ls cs).grantPass = s.grantPass.withLanes ls cs := by
  unfold State.grantPass
  rw [show (s.withLanes ls cs).link = s.link from rfl]
  split <;> rfl

theorem grantReport_withLanes : (s.withLanes ls cs).grantReport = s.grantReport.withLanes ls cs := by
  unfold State.grantReport
  rw [show (s.withLanes ls cs).reports = s.reports from rfl]
  split <;> rfl

theorem arbitrate_withLanes : (s.withLanes ls cs).arbitrate = s.arbitrate.withLanes ls cs := by
  unfold State.arbitrate
  rw [show (s.withLanes ls cs).link = s.link from rfl, show (s.withLanes ls cs).reports = s.reports from rfl]
  split
  · rfl
  · split
    · exact grantAct_withLanes s ls cs _
    · split
      · rfl
      · exact grantPass_withLanes s ls cs
      · exact grantReport_withLanes s ls cs
      · split
        · exact grantPass_withLanes s ls cs
        · exact grantReport_withLanes s ls cs

theorem joinAct_withLanes (l : Lane) (m : ActMsg) : (s.withLanes ls cs).joinAct l m = (s.joinAct l m).withLanes ls cs :=
  arbitrate_withLanes { s with link := { s.link with act := s.link.act.set l (s.link.act.get l ++ [s.actFrame l m]) } } ls cs

theorem postNotice_withLanes (d : Station) (m : NoticeMsg) :
    (s.withLanes ls cs).postNotice d m = (s.postNotice d m).withLanes ls cs := by
  unfold State.postNotice
  rw [show (s.withLanes ls cs).slotFree = s.slotFree from rfl]
  dsimp only
  split
  · exact arbitrate_withLanes
      { s with
        reports :=
          { s.reports with
            nextSerial := s.reports.nextSerial + 1
            queued := s.reports.queued ++ [{ dest := d, src := s.link.station, body := .notice s.reports.nextSerial m }] } }
      ls cs
  · rfl

theorem closeBatch_withLanes : (s.withLanes ls cs).closeBatch = s.closeBatch.withLanes ls cs := by
  unfold State.closeBatch
  rw [show (s.withLanes ls cs).reports = s.reports from rfl]
  split
  · rfl
  · unfold State.notice
    rw [show State.classOn { s.withLanes ls cs with reports := { s.reports with batch := [] } } .piece
      = State.classOn { s with reports := { s.reports with batch := [] } } .piece from rfl]
    split
    · exact postNotice_withLanes { s with reports := { s.reports with batch := [] } } ls cs _ _
    · rfl

theorem appendReport_withLanes (r : PieceReport) :
    (s.withLanes ls cs).appendReport r = (s.appendReport r).withLanes ls cs := by
  rw [State.appendReport_eq, State.appendReport_eq, show (s.withLanes ls cs).classOn .piece = s.classOn .piece from rfl,
    show (s.withLanes ls cs).reports = s.reports from rfl]
  split
  · split
    · exact closeBatch_withLanes (s.withRecord r) ls cs
    · rfl
  · rfl

end Blind

/-- An ACT frame that joins its queue and a change of a lane do not meet. -/
theorem joinAct_modLane (s : State) (l k : Lane) (f : LaneS → LaneS) (m : ActMsg) :
    (s.modLane l f).joinAct k m = (s.joinAct k m).modLane l f := by
  have h := joinAct_withLanes s (s.lanes.set l (f (s.lanes.get l))) s.categories k m
  have hl : (s.joinAct k m).lanes = s.lanes := by simp
  have hc : (s.joinAct k m).categories = s.categories := by simp
  calc
    (s.modLane l f).joinAct k m = (s.joinAct k m).withLanes (s.lanes.set l (f (s.lanes.get l))) s.categories := h
    _ = (s.joinAct k m).modLane l f := by
      unfold State.withLanes State.modLane
      rw [hl, ← hc]

/-- The hand-offs of a retirement do not see the outbound side. -/
theorem handOff_withOutside (s : State) (l : Lane) (way : Way) (p : Piece) (k : Link) (r : Reports) :
    (s.withOutside k r).handOff l way p = (s.handOff l way p).withOutside k r := by
  have count (u : State) (q : Piece) : (u.withOutside k r).countRetired l way q = (u.countRetired l way q).withOutside k r := by
    unfold State.countRetired
    cases q.disposition with
    | none => rfl
    | some d =>
      dsimp only
      split <;> rfl
  have pocket (u : State) (q : Piece) : (u.withOutside k r).pocketRetired l way q = (u.pocketRetired l way q).withOutside k r := by
    unfold State.pocketRetired
    split <;> rfl
  have window (u : State) (q : Piece) : (u.withOutside k r).windowRetired l way q = (u.windowRetired l way q).withOutside k r := by
    unfold State.windowRetired
    split
    · split <;> rfl
    · rfl
  unfold State.handOff
  dsimp only
  rw [← window, ← pocket, ← count]
  rfl

/-- The hand-offs of a retirement change lanes and categories only (R60). -/
theorem handOff_eq_withLanes (s : State) (l : Lane) (way : Way) (p : Piece) :
    s.handOff l way p = s.withLanes (s.handOff l way p).lanes (s.handOff l way p).categories := by
  have count (u : State) (q : Piece) : u.countRetired l way q
      = u.withLanes (u.countRetired l way q).lanes (u.countRetired l way q).categories := by
    unfold State.countRetired
    cases q.disposition with
    | none => rfl
    | some d =>
      dsimp only
      split <;> rfl
  have pocket (u : State) (q : Piece) : u.pocketRetired l way q
      = u.withLanes (u.pocketRetired l way q).lanes (u.pocketRetired l way q).categories := by
    unfold State.pocketRetired
    split <;> rfl
  have window (u : State) (q : Piece) : u.windowRetired l way q
      = u.withLanes (u.windowRetired l way q).lanes (u.windowRetired l way q).categories := by
    unfold State.windowRetired
    split
    · split <;> rfl
    · rfl
  unfold State.handOff
  dsimp only
  rw [window, pocket, count]
  rfl

/-- A piece report and a later retirement's hand-offs do not meet. -/
theorem appendReport_handOff (s : State) (x : PieceReport) (l : Lane) (way : Way) (p : Piece) :
    (s.appendReport x).handOff l way p = (s.handOff l way p).appendReport x := by
  have h1 : s.appendReport x = s.withOutside (s.appendReport x).link (s.appendReport x).reports := by
    obtain ⟨-, -, -, -, -, -, -, hi, hl, hs, hr, hc, hst, hd, ha, hf, hp⟩ := State.appendReport_keeps s x
    exact State.eq_withOutside hi hl hs hr hc hst hd ha hf hp
  rw [h1, handOff_withOutside, handOff_eq_withLanes s l way p, appendReport_withLanes]
  rw [h1]
  rfl

/-- The piece reports of several records joining the batch one after another (R26). -/
def State.appendReports (s : State) (rs : List PieceReport) : State := rs.foldl State.appendReport s

/-- Records handed off one after another. -/
def State.handOffs (s : State) (l : Lane) (way : Way) (ps : List Piece) : State :=
  ps.foldl (fun s p => s.handOff l way p) s

/-- A JAM_CLEAR retires the records of a list as if all were handed off first and their piece reports
appended afterwards (R59). -/
theorem retireAll_jamClear (s : State) (l : Lane) :
    s.retireAll l .jamClear
      = (s.handOffAll l .jamClear).appendReports ((s.lane l).list.map fun p => (retired .jamClear p).report l) := by
  have handOffs_append (ps : List Piece) (s : State) (x : PieceReport) :
      (s.appendReport x).handOffs l .jamClear ps = (s.handOffs l .jamClear ps).appendReport x := by
    induction ps generalizing s with
    | nil => rfl
    | cons p ps ih =>
      show ((s.appendReport x).handOff l .jamClear p).handOffs l .jamClear ps = _
      rw [appendReport_handOff, ih]
      rfl
  have all (ps : List Piece) (s : State) :
      ps.foldl (fun s p => s.retire l .jamClear p) s
        = (s.handOffs l .jamClear ps).appendReports (ps.map fun p => (retired .jamClear p).report l) := by
    induction ps generalizing s with
    | nil => rfl
    | cons p ps ih =>
      show ps.foldl (fun s p => s.retire l .jamClear p) ((s.handOff l .jamClear p).appendReport _) = _
      rw [ih, handOffs_append]
      rfl
  exact all _ _

/-- A line reset retires the records of a list without piece reports (R60). -/
theorem retireAll_lineReset (s : State) (l : Lane) : s.retireAll l .lineReset = s.handOffAll l .lineReset := rfl

/-! ### Operations as chains -/

section Operations

variable {i : Instr} {a : Option Lane} {s : State}

theorem setLatch_moves (s : State) (x : Latch) : Moves i a s a (s.setLatch x) := State.Aside.moves (by constructor <;> rfl)

theorem setFlag_moves (s : State) (x : StickyFlag) : Moves i a s a (s.setFlag x) := State.Aside.moves (by constructor <;> rfl)

theorem notice_moves (s : State) (k : NoticeClass) (m : NoticeMsg) : Moves i a s a (s.notice k m) := by
  unfold State.notice
  split
  · exact (Outer.postNotice s _ m).moves
  · exact .refl

theorem appendReports_moves (rs : List PieceReport) (s : State) : Moves i a s a (s.appendReports rs) := by
  induction rs generalizing s with
  | nil => exact .refl
  | cons r rs ih => exact (Outer.appendReport s r).moves.trans (ih _)

/-- A lane changed without anything that the invariants read. -/
theorem alike_moves {s : State} {l : Lane} (f : LaneS → LaneS) (h : (s.lane l).Alike (f (s.lane l))) : Moves i a s a (s.modLane l f) :=
  (LaneMove.alike f h).moves

theorem modTagged_alike {tag : Tag} {f : Piece → Piece} {ps : List Piece} (hf : ∀ p : Piece, p.Alike (f p)) :
    List.Forall₂ Piece.Alike ps (modTagged tag f ps) := by
  unfold modTagged
  refine List.forall₂_map_right_iff.2 (List.forall₂_same.2 fun p _ => ?_)
  split
  · exact hf p
  · exact .refl p

theorem LaneS.alike_list {x : LaneS} {ps : List Piece} (h : List.Forall₂ Piece.Alike x.list ps) : x.Alike { x with list := ps } :=
  ⟨{ LaneS.Kept.refl x with list := h.imp fun _ _ => Piece.Alike.toKept }, fun _ => id, h⟩

/-- A record changed without anything that the invariants read. -/
theorem modPiece_moves (s : State) (l : Lane) (tag : Tag) (f : Piece → Piece) (hf : ∀ p : Piece, p.Alike (f p)) :
    Moves i a s a (s.modPiece l tag f) :=
  alike_moves (fun x => { x with list := modTagged tag f x.list }) (LaneS.alike_list (modTagged_alike hf))

theorem LaneS.alike_counters {x : LaneS} {c : LaneCounters} (h1 : c.captured = x.counters.captured)
    (h2 : c.dispositions = x.counters.dispositions) : x.Alike { x with counters := c } :=
  { LaneS.Alike.refl x with captured := h1, dispositions := h2 }

/-- Counters changed other than CAPTURED and the dispositions. -/
theorem count_moves {l : Lane} (f : LaneCounters → LaneCounters) (h1 : ∀ c, (f c).captured = c.captured)
    (h2 : ∀ c, (f c).dispositions = c.dispositions) : Moves i a s a (s.count l f) :=
  alike_moves (LaneS.count f) (LaneS.alike_counters (h1 _) (h2 _))

theorem LaneS.alike_window {x : LaneS} {w : Option Window} (h : w = none ↔ x.window = none) : x.Alike { x with window := w } :=
  { LaneS.Alike.refl x with window := h }

theorem countWindow_moves (s : State) (l : Lane) (f : Window → Window) : Moves i a s a (s.countWindow l f) :=
  alike_moves (fun x => { x with window := x.window.map f }) (LaneS.alike_window (by simp))

theorem LaneS.alike_eye {x : LaneS} {e : Eye} (hi : x.eye ≠ .idle) (he : e ≠ .idle) (hc : ∀ st, e ≠ .covered st) :
    x.Alike { x with eye := e } :=
  { LaneS.Alike.refl x with
    idle := ⟨fun h => absurd h he, fun h => absurd h hi⟩
    covered := fun st h => absurd h (hc st) }

theorem LaneS.alike_heads {x : LaneS} {h : HeadId} {y : Head} (hy : (x.heads.get h).Alike y) :
    x.Alike { x with heads := x.heads.set h y } :=
  { LaneS.Alike.refl x with
    heads := fun k => by
      show (x.heads.get k).Alike ((x.heads.set h y).get k)
      rw [PerHead.get_set_eq]
      split
      · rename_i hk; exact hk ▸ hy
      · exact .refl _ }

theorem modHead_moves {l : Lane} {h : HeadId} (f : Head → Head) (hf : (s.head l h).Alike (f (s.head l h))) :
    Moves i a s a (s.modHead l h f) :=
  alike_moves (fun x => { x with heads := x.heads.set h (f (x.heads.get h)) }) (LaneS.alike_heads hf)

theorem LaneS.alike_pockets {x : LaneS} {k : Fin 10} {y : Pocket} (hy : (x.pockets.get k).Alike y) :
    x.Alike { x with pockets := x.pockets.set k.val y k.isLt } :=
  { LaneS.Alike.refl x with
    pockets := fun j => by
      show (x.pockets.get j).Alike ((x.pockets.set k.val y k.isLt).get j)
      rw [vectorGet_set]
      split
      · rename_i hj; exact hj ▸ hy
      · exact .refl _ }

theorem modPocket_moves {l : Lane} {k : Fin 10} (f : Pocket → Pocket) (hf : (s.pocket l k).Alike (f (s.pocket l k))) :
    Moves i a s a (s.modPocket l k f) :=
  alike_moves (fun x => { x with pockets := x.pockets.set k.val (f (x.pockets.get k)) k.isLt }) (LaneS.alike_pockets hf)

theorem joinAct_moves (s : State) {l : Lane} (m : ActMsg) (h : (s.link.act.get l).length < 8) :
    Moves i a s a (s.joinAct l m) := (Outer.joinAct m h).moves

/-- A frame that joins an emptied queue leaves one frame there at most. -/
theorem joinAct_act_length (s : State) (l : Lane) (m : ActMsg) :
    ((s.joinAct l m).link.act.get l).length ≤ (s.link.act.get l).length + 1 := by
  unfold State.joinAct
  rcases State.arbitrate_cases
    { s with link := { s.link with act := s.link.act.set l (s.link.act.get l ++ [s.actFrame l m]) } } with h | ⟨_, ⟨k, h⟩ | h | h⟩ <;>
    rw [h]
  · simp
  · unfold State.grantAct
    by_cases hk : l = k
    · subst hk
      split
      · simp
      · rename_i f fs hf
        have hl : (s.link.act.get l).length + 1 = fs.length + 1 := by simpa using congrArg List.length hf
        simp only [PerLane.get_set]
        omega
    · split
      · simp
      · simp [PerLane.get_set_ne _ _ hk]
  · simp
  · simp

/-- A jam is made of moves (R58). -/
theorem jam_moves {l : Lane} (cause : JamCause) (fromFeed : Bool) (hi : canJam l i) (h : (s.lane l).active = true) :
    Moves i a s a (s.jam l cause fromFeed) := by
  have h0 : ((s.emptyAct l).link.act.get l).length = 0 := by simp [State.emptyAct]
  have h1 := joinAct_act_length (s.emptyAct l) l .safe
  obtain ⟨u, hu, hm, hl⟩ : ∃ u, ((if (s.lane l).feedRate != .hold || fromFeed then
        (((s.modLane l LaneS.jam).emptyAct l).joinAct l .safe).joinAct l (.feed .hold)
      else ((s.modLane l LaneS.jam).emptyAct l).joinAct l .safe) = u.modLane l LaneS.jam)
      ∧ Moves i a s a u ∧ u.lane l = s.lane l := by
    have e : ((s.modLane l LaneS.jam).emptyAct l).joinAct l .safe = ((s.emptyAct l).joinAct l .safe).modLane l LaneS.jam :=
      joinAct_modLane (s.emptyAct l) l l _ _
    have m := (Outer.emptyAct s l).moves.trans (joinAct_moves (i := i) (a := a) (s.emptyAct l) (l := l) .safe (by omega))
    rw [e, joinAct_modLane]
    split
    · exact ⟨_, rfl, m.trans (joinAct_moves _ (l := l) _ (by omega)), by simp⟩
    · exact ⟨_, rfl, m, by simp⟩
  have hj : ((u.modLane l LaneS.jam).emptyBookings l) = u.modLane l LaneS.jammed := by
    rw [State.emptyBookings, State.modLane_modLane]
    rfl
  unfold State.jam
  dsimp only
  rw [hu, hj]
  exact hm.trans ((LaneMove.jam hi (by rw [hl]; exact h)).moves.trans ((Outer.closeBatch _).moves.trans
    ((notice_moves _ _ _).trans ((setLatch_moves _ _).trans (setLatch_moves _ _)))))

theorem jamCause_moves {l : Lane} (cause : JamCause) (hi : canJam l i) : Moves i a s a (s.jamCause l cause) := by
  unfold State.jamCause
  split
  · exact jam_moves cause false hi ‹_›
  · exact .refl

theorem placeAct_moves {l : Lane} (m : ActMsg) (hi : canJam l i) : Moves i a s a (s.placeAct l m) := by
  by_cases h : (s.link.act.get l).length < 8
  · rw [placeAct_room h]
    exact joinAct_moves _ _ h
  · rw [placeAct_full (by omega)]
    split
    · exact jam_moves _ _ hi ‹_›
    · exact .refl

/-- The feed rate worked out afresh is one move and the placing of its frame (R159). -/
theorem updateRate_moves {l : Lane} (hi : canJam l i) (ha : a = none ∨ a = some l) : Moves i a s none (s.updateRate l) := by
  have hr := (LaneMove.rate (i := i) (l := l) s ha).moves
  unfold State.updateRate
  dsimp only
  split
  · rename_i h
    have e : s.modLane l LaneS.rated = s := State.modLane_id s l _ (by unfold LaneS.rated; rw [h])
    rw [e] at hr
    exact hr
  · exact hr.trans (placeAct_moves _ hi)

/-- What follows a change of a lane's state (R45). -/
theorem laneTo_eq (s : State) (l : Lane) (st : LaneState) :
    s.laneTo l st = ((s.modLane l fun x => { x with state := st }).setLatch .laneChange).notice .lane
      (.lane l (s.lane l).state st (s.lane l).list.length) := by
  unfold State.laneTo
  simp

theorem laneTo_moves {b : Option Lane} {l : Lane} {st : LaneState}
    (h : LaneMove i a s b (s.modLane l fun x => { x with state := st })) : Moves i a s b (s.laneTo l st) := by
  rw [laneTo_eq]
  exact h.moves.trans ((setLatch_moves _ _).trans (notice_moves _ _ _))

theorem drain_moves {l : Lane} (hi : canDrain l i) : Moves i a s a (s.drain l) := by
  unfold State.drain
  split
  · rename_i h
    simp only [Bool.and_eq_true, beq_iff_eq, List.isEmpty_iff] at h
    have e : (s.modLane l LaneS.atRest).modLane l (fun x => { x with state := .stopped })
        = s.modLane l fun x => { x.atRest with state := .stopped } := State.modLane_modLane _ _ _ _
    rw [laneTo_eq, e]
    exact (LaneMove.drain hi h.1 h.2).moves.trans ((setLatch_moves _ _).trans (notice_moves _ _ _))
  · exact .refl

/-- A retirement is its hand-offs and its piece report (R60). -/
theorem retire_eq_handOff (s : State) (l : Lane) {way : Way} (p : Piece) (hw : way ≠ .lineReset) :
    s.retire l way p = (s.handOff l way p).appendReport ((retired way p).report l) := by
  cases way with
  | lineReset => exact absurd rfl hw
  | ordinary => rfl
  | glitch => rfl
  | jamClear => rfl

end Operations

end Sys2Proof.Machine

/-! The operations on scans, slots and jobs keep every lane, and everything outside the lanes, Scan
Capture and the Corner Scorer. -/

namespace Sys2Proof.Machine

/-- A part that differs in lanes, scans, jobs and category records only. -/
def State.Within (s t : State) : Prop :=
  t = { s with lanes := t.lanes, scan := t.scan, scorer := t.scorer, categories := t.categories }

/-- A part that differs in nothing but scans, jobs and category records, and in what a kept lane may
change. -/
structure State.Kept (s t : State) : Prop where
  within : s.Within t
  lanes : ∀ l, (s.lane l).Kept (t.lane l)

theorem State.Within.trans {s t u : State} (h : s.Within t) (h' : t.Within u) : s.Within u := by
  unfold State.Within at *
  rw [h'] ; dsimp only; rw [h]

theorem State.Kept.refl (s : State) : s.Kept s := ⟨rfl, fun _ => .refl _⟩

theorem State.Kept.trans {s t u : State} (h : s.Kept t) (h' : t.Kept u) : s.Kept u :=
  ⟨h.within.trans h'.within, fun l => (h.lanes l).trans (h'.lanes l)⟩

/-- Scans, jobs and the scorer alone changed. -/
theorem kept_scanScorer (s : State) (c : Scan) (k : Scorer) : s.Kept { s with scan := c, scorer := k } :=
  ⟨rfl, fun _ => .refl _⟩

/-- One lane kept by a change of it. -/
theorem modLane_kept {s : State} {l : Lane} {f : LaneS → LaneS} (h : (s.lane l).Kept (f (s.lane l))) :
    s.Kept (s.modLane l f) := by
  refine ⟨rfl, fun m => ?_⟩
  rw [State.modLane_lane_eq]
  split
  · rename_i hm; exact hm ▸ h
  · exact .refl _

theorem LaneS.kept_list {x : LaneS} {ps : List Piece} (h : List.Forall₂ Piece.Kept x.list ps) :
    x.Kept { x with list := ps } := { LaneS.Kept.refl x with list := h }

theorem modTagged_kept {tag : Tag} {f : Piece → Piece} {ps : List Piece} (hf : ∀ p : Piece, p.Kept (f p)) :
    List.Forall₂ Piece.Kept ps (modTagged tag f ps) := by
  unfold modTagged
  refine List.forall₂_map_right_iff.2 (List.forall₂_same.2 fun p _ => ?_)
  split
  · exact hf p
  · exact .refl p

section Scans

variable (s : State) (l : Lane) (tag : Tag)

theorem modPiece_kept {f : Piece → Piece} (hf : ∀ p : Piece, p.Kept (f p)) : s.Kept (s.modPiece l tag f) :=
  modLane_kept (LaneS.kept_list (modTagged_kept hf))

/-- A record with another scan state is kept. -/
theorem Piece.kept_scan (p : Piece) (x : ScanState) : p.Kept { p with scan := x } := ⟨rfl, rfl, rfl, rfl, rfl, id⟩

theorem grantSlot_kept : s.Kept (s.grantSlot l tag) := by
  unfold State.grantSlot
  split
  · exact .refl s
  · split
    · exact .refl s
    · exact (kept_scanScorer s _ _).trans (modPiece_kept _ l tag fun p => p.kept_scan _)

theorem askSlot_kept : s.Kept (s.askSlot l tag) := by
  unfold State.askSlot
  split
  · exact grantSlot_kept s l tag
  · exact (kept_scanScorer s { s.scan with waitList := s.scan.waitList ++ [(l, tag)] } s.scorer).trans
      (modPiece_kept _ l tag fun p => p.kept_scan _)

theorem passSlotOn_kept : s.Kept s.passSlotOn := by
  unfold State.passSlotOn
  split
  · exact .refl s
  · rename_i m t rest _
    exact (kept_scanScorer s { s.scan with waitList := rest } s.scorer).trans (grantSlot_kept _ m t)

theorem passSlotsOn_kept (n : Nat) : s.Kept (s.passSlotsOn n) := by
  induction n generalizing s with
  | zero => exact .refl s
  | succ n ih => exact (passSlotOn_kept s).trans (ih _)

theorem dropJob_kept : s.Kept (s.dropJob l tag) :=
  (kept_scanScorer s s.scan
    { s.scorer with queues := s.scorer.queues.set l ((s.scorer.queues.get l).filter fun j => !(j.tag == tag)) }).trans
    (passSlotsOn_kept _ _)

theorem leaveWaitList_kept : s.Kept (s.leaveWaitList l tag) := ⟨rfl, fun _ => .refl _⟩

theorem failScan_kept (r : FailReason) : s.Kept (s.failScan l tag r) := modPiece_kept s l tag fun p => p.kept_scan _

theorem abandonScan_kept : s.Kept (s.abandonScan l tag) := by
  unfold State.abandonScan
  split
  · exact .refl s
  · exact failScan_kept s l tag _
  · exact (failScan_kept s l tag _).trans (leaveWaitList_kept _ l tag)
  · exact (failScan_kept s l tag _).trans (dropJob_kept _ l tag)
  · exact failScan_kept s l tag _
  · exact (failScan_kept s l tag _).trans (modPiece_kept _ l tag fun p => ⟨rfl, rfl, rfl, rfl, rfl, id⟩)
  · exact .refl s

theorem settleScan_kept : s.Kept (s.settleScan l tag) := by
  unfold State.settleScan
  split
  · exact failScan_kept s l tag _
  · exact (failScan_kept s l tag _).trans (leaveWaitList_kept _ l tag)
  · exact (failScan_kept s l tag _).trans (dropJob_kept _ l tag)
  · exact .refl s

theorem jamScan_kept (p : Piece) : p.Kept (jamScan p) := by
  unfold jamScan
  split
  · exact p.kept_scan _
  · exact p.kept_scan _
  · exact p.kept_scan _
  · exact .refl p

theorem withdrawLane_kept : s.Kept (s.withdrawLane l) := by
  have h : s.Kept (s.modLane l fun x => { x with list := x.list.map jamScan }) :=
    modLane_kept (LaneS.kept_list (List.forall₂_map_right_iff.2 (List.forall₂_same.2 fun p _ => jamScan_kept p)))
  exact (h.trans (kept_scanScorer _ _ _)).trans (passSlotsOn_kept _ _)

theorem askReady_kept : s.Kept (s.askReady l) := by
  have all (ts : List Tag) (u : State) : u.Kept (ts.foldl (fun s t => s.askSlot l t) u) := by
    induction ts generalizing u with
    | nil => exact .refl u
    | cons t ts ih => exact (askSlot_kept u l t).trans (ih _)
  exact all _ s

theorem engineTakes_kept : s.Kept (s.engineTakes l) := by
  unfold State.engineTakes
  split
  · exact .refl s
  · rename_i j js _
    exact (kept_scanScorer s s.scan { queues := s.scorer.queues.set l js, engine := some j, lastServed := l }).trans
      (modPiece_kept _ l j.tag fun p => p.kept_scan _)

theorem takeJob_kept : s.Kept s.takeJob := by
  unfold State.takeJob
  split
  · exact .refl s
  · split
    · exact engineTakes_kept s _
    · exact .refl s

/-- Counters other than CAPTURED and the dispositions changed. -/
theorem count_kept (f : LaneCounters → LaneCounters) (h1 : (f (s.lane l).counters).captured = (s.lane l).counters.captured)
    (h2 : (f (s.lane l).counters).dispositions = (s.lane l).counters.dispositions) : s.Kept (s.count l f) :=
  modLane_kept { LaneS.Kept.refl (s.lane l) with captured := h1, dispositions := h2 }

theorem countWindow_kept (f : Window → Window) : s.Kept (s.countWindow l f) :=
  modLane_kept { LaneS.Kept.refl (s.lane l) with window := by simp }

theorem writeFinding_kept (p : Piece) (f : Finding) : s.Kept (s.writeFinding l p f) :=
  (modPiece_kept s l p.tag (f := Piece.found { f with staleRef := (s.lane l).monitors.reference.declared })
    fun _ => ⟨rfl, rfl, rfl, rfl, rfl, id⟩).trans (count_kept _ l (LaneCounters.written p.decisionTaken _) rfl rfl)

theorem offerAudit_kept (j : Job) (rs : PerCorner CornerResult) (r : FindingResult) : s.Kept (s.offerAudit j rs r) := by
  unfold State.offerAudit
  split
  · exact count_kept s j.lane _ rfl rfl
  · exact ⟨rfl, fun _ => .refl _⟩

theorem advanceAudit_kept (j : Job) (rs : PerCorner CornerResult) (r : FindingResult) : s.Kept (s.advanceAudit j rs r) := by
  have h (n : Nat) : s.Kept (s.modLane j.lane fun x => { x with auditCounter := n }) :=
    modLane_kept { LaneS.Kept.refl (s.lane j.lane) with }
  unfold State.advanceAudit
  dsimp only
  split
  · exact .refl s
  · split
    · exact h _
    · exact (h 0).trans (offerAudit_kept _ j rs r)

theorem scored_kept (j : Job) : s.Kept (s.scored j) := by
  unfold State.scored
  dsimp only
  split
  · rename_i p _
    exact (writeFinding_kept s j.lane p _).trans (advanceAudit_kept _ j _ _)
  · exact .refl s

theorem finish_kept (j : Job) :
    s.Kept ({ s.scored j with scorer := { (s.scored j).scorer with engine := none } } : State).passSlotOn :=
  ((scored_kept s j).trans (kept_scanScorer _ _ _)).trans (passSlotOn_kept _)

theorem reopen_kept {p : Piece} (h : (s.lane l).eye ≠ .idle) : s.Kept (s.reopen l p) := by
  have hp : ∀ q : Piece, q.Kept q.reopened := fun q => ⟨rfl, rfl, rfl, rfl, rfl, id⟩
  have h1 : s.Kept (s.modLane l fun x => { x with eye := .covered x.belt, list := modTagged p.tag Piece.reopened x.list }) :=
    modLane_kept { LaneS.Kept.refl (s.lane l) with idle := ⟨nofun, fun hh => absurd hh h⟩, list := modTagged_kept hp }
  have h2 (u : State) : u.Kept (u.countShingle l p) := by
    unfold State.countShingle
    split
    · exact .refl u
    · exact (count_kept u l _ rfl rfl).trans (countWindow_kept _ l _)
  exact (h1.trans (h2 _)).trans (abandonScan_kept _ l p.tag)

end Scans

/-- The record of a tag in a kept list. -/
theorem find?_kept {ps qs : List Piece} {tag : Tag} (h : List.Forall₂ Piece.Kept ps qs) :
    Option.Rel Piece.Kept (ps.find? fun p => p.tag == tag) (qs.find? fun p => p.tag == tag) := by
  induction h with
  | nil => exact .none
  | @cons p q ps qs h1 _ ih =>
    rw [List.find?_cons, List.find?_cons, h1.tag]
    split
    · exact .some h1
    · exact ih

theorem State.Kept.piece? {s t : State} (h : s.Kept t) (l : Lane) (tag : Tag) :
    Option.Rel Piece.Kept (s.piece? l tag) (t.piece? l tag) := find?_kept (h.lanes l).list

end Sys2Proof.Machine

/-! Every step is a chain of moves: the steps of the link, of belt and eye, the track events and the
part's own engines. -/

namespace Sys2Proof.Machine

/-! ### The link -/

section Link

variable {i : Instr} {a : Option Lane}

theorem drawn_moves (s : State) : Moves i a s a s.drawn := State.Aside.moves (by constructor <;> rfl)

theorem countLink_moves (s : State) (f : LinkCounters → LinkCounters) : Moves i a s a (s.countLink f) :=
  State.Aside.moves (by constructor <;> rfl)

theorem inEitherOrder_moves {f g : State → State} (hf : ∀ s, Moves i a s a (f s)) (hg : ∀ s, Moves i a s a (g s)) (s : State) :
    Moves i a s a (s.inEitherOrder f g) := by
  unfold State.inEitherOrder
  split
  · exact (drawn_moves s).trans ((hf _).trans (hg _))
  · exact (drawn_moves s).trans ((hg _).trans (hf _))

theorem unitReceived_moves (unit : List Byte) (s : State) :
    ∃ t, execUnitReceived unit s = .next t ∧ Moves i a s a t := by
  refine ⟨_, rfl, ?_⟩
  split
  · exact countLink_moves s _
  · exact countLink_moves s _
  · split
    · exact .refl
    · exact (Outer.offer s unit).moves
    · exact countLink_moves s _

theorem transmissionEnd_moves (s : State) : ∃ t, execTransmissionEnd s = .next t ∧ Moves i a s a t := by
  refine ⟨_, rfl, ?_⟩
  split
  · exact .refl
  · exact (Outer.sent s).moves

theorem consume_moves {unit : List Byte} {dest : Station} {f : State → State} (hf : ∀ s, Moves i a s a (f s)) (s : State) :
    Moves i a s a (s.consume unit dest f) := by
  unfold State.consume
  split
  · exact inEitherOrder_moves (fun s => (Outer.offer s unit).moves) hf s
  · exact hf s

theorem takeCommand_moves (f : RxFrame) (s : State) : Moves i a s a (s.takeCommand f) := by
  unfold State.takeCommand
  split
  · refine (State.Aside.moves (t := { s with link := { s.link with controller := f.src } }) (by constructor <;> rfl)).trans ?_
    unfold State.acceptOrRefuse
    split
    · rename_i h
      exact (Outer.accept _ h).moves
    · exact (Outer.postNotice _ _ _).moves
  · exact countLink_moves s _

theorem commandFrame_moves (unit : List Byte) (s : State) : ∃ t, execCommandFrame unit s = .next t ∧ Moves i a s a t := by
  unfold execCommandFrame
  split
  · exact ⟨s, rfl, .refl⟩
  · refine ⟨_, rfl, ?_⟩
    split
    · exact consume_moves (takeCommand_moves _) s
    · exact .refl

theorem headReport_moves (l : Lane) (h : HeadId) (fault : Bool) (s : State) : Moves i a s a (s.headReport l h fault) := by
  unfold State.headReport
  split
  · exact .refl
  · exact (modHead_moves _ ⟨rfl, rfl, rfl, id⟩).trans (notice_moves _ _ _)

theorem takeActStatus_moves (hi : ∀ l, canJam l i) (f : RxFrame) (s : State) : Moves i a s a (s.takeActStatus f) := by
  unfold State.takeActStatus
  split
  · unfold State.actReport
    split
    · exact headReport_moves _ _ _ s
    · split
      · exact jamCause_moves _ (hi _)
      · exact .refl
  · exact countLink_moves s _

theorem actStatusFrame_moves (hi : ∀ l, canJam l i) (unit : List Byte) (s : State) :
    ∃ t, execActStatusFrame unit s = .next t ∧ Moves i a s a t := by
  unfold execActStatusFrame
  split
  · exact ⟨s, rfl, .refl⟩
  · refine ⟨_, rfl, ?_⟩
    split
    · exact consume_moves (takeActStatus_moves hi _) s
    · exact .refl

/-! ### Samples -/

/-- The references are none of what the invariants read. -/
theorem LaneS.alike_refs (x : LaneS) (r : PerBand Refs) : x.Alike { x with refs := r } := { LaneS.Alike.refl x with }

theorem updateRefs_moves (l : Lane) (b : Band) (x : Sample) (s : State) : Moves i a s a (s.updateRefs l b x) :=
  (alike_moves (fun ln => { ln with refs := ln.refs.set b ((ln.refs.get b).move x) }) (LaneS.alike_refs _ _)).trans
    (countWindow_moves _ _ _)

theorem takeSample_moves (l : Lane) (b : Band) (q : Pos) (raw : Sample) (s : State) :
    Moves i a s a (s.takeSample l b q raw) := by
  unfold State.takeSample
  split
  · exact count_moves _ (fun _ => rfl) fun _ => rfl
  · dsimp only
    refine Moves.trans ?_ (LaneMove.askReady _ l).moves
    split
    · exact (LaneMove.file s l b q _).moves.trans (updateRefs_moves _ _ _ _)
    · exact (LaneMove.file s l b q _).moves

theorem takeSamples_moves (l : Lane) (b : Band) (q : Pos) (xs : List Sample) (s : State) :
    Moves i a s a (s.takeSamples l b q xs) := by
  induction xs generalizing q s with
  | nil => exact .refl
  | cons x xs ih => exact (takeSample_moves l b q x s).trans (ih _ _)

theorem deliverSamples_moves (l : Lane) (r : SampleRun) (s : State) : Moves i a s a (s.deliverSamples l r) := by
  unfold State.deliverSamples
  split
  · exact takeSamples_moves _ _ _ _ _
  · exact .refl

theorem sampleFrame_moves (unit : List Byte) (s : State) : ∃ t, execSampleFrame unit s = .next t ∧ Moves i a s a t := by
  unfold execSampleFrame
  split
  · exact ⟨s, rfl, .refl⟩
  · refine ⟨_, rfl, ?_⟩
    split
    · split
      · unfold State.deliverToLanes
        split
        · exact inEitherOrder_moves (deliverSamples_moves .a _) (deliverSamples_moves .b _) s
        · exact deliverSamples_moves _ _ _
        · exact deliverSamples_moves _ _ _
        · exact .refl
      · exact countLink_moves s _
    · exact .refl

end Link

/-! ### Belt and eye -/

/-- The belt's step touches the forward mark's position only (R44). -/
theorem LaneS.alike_step (forward : Bool) (x : LaneS) : x.Alike (x.step forward) := by
  unfold LaneS.step
  split
  · exact { LaneS.Alike.refl x with forwardMark := by simp [markForward] }
  · exact { LaneS.Alike.refl x with }

theorem beltStep_moves (l : Lane) (forward : Bool) (s : State) :
    ∃ t, execBeltStep l forward s = .next t ∧ Moves (.beltStep l forward) none s none t := by
  have h1 : Moves (.beltStep l forward) none s none (s.modLane l (LaneS.step forward)) :=
    alike_moves (LaneS.step forward) (LaneS.alike_step forward _)
  refine ⟨_, rfl, h1.trans ?_⟩
  split
  · rename_i h
    simp only [Bool.and_eq_true, Bool.not_eq_true'] at h
    exact jamCause_moves _ ⟨rfl, h.1⟩
  · exact .refl

/-- The level of the eye input is none of what the invariants read. -/
theorem LaneS.alike_eyeCovered (x : LaneS) (b : Bool) : x.Alike { x with eyeCovered := b } := { LaneS.Alike.refl x with }

section Eye

variable {i : Instr} {s : State} {l : Lane}

theorem pass_moves {a : Option Lane} (counted : Bool) (h : (s.lane l).eye ≠ .idle) : Moves i a s a (s.modLane l (LaneS.pass counted)) := by
  refine alike_moves _ ?_
  have h1 : (s.lane l).Alike { s.lane l with eye := .passing (s.lane l).belt } := LaneS.alike_eye h nofun fun _ => nofun
  unfold LaneS.pass
  split
  · exact { h1 with captured := rfl, dispositions := rfl }
  · exact h1

theorem edgeArmed_moves (h : (s.lane l).eye ≠ .idle) : Moves (.leadingEdge l) none s none (s.edgeArmed l) := by
  unfold State.edgeArmed
  split
  · exact (LaneMove.capture rfl ‹_›).moves.trans (updateRate_moves rfl (.inr rfl))
  · exact pass_moves true h

theorem edgeInGap_moves {p : Pos} {c : Bool} (h : (s.lane l).eye = .gapHold p c) : Moves i none s none (s.edgeInGap l c) := by
  have hn : (s.lane l).eye ≠ .idle := by rw [h]; nofun
  unfold State.edgeInGap
  split
  · rename_i hc
    split
    · split
      · exact pass_moves true hn
      · rename_i hp hd
        exact (LaneMove.reopen hp (by simpa using hd) (by rw [h, hc])).moves
    · exact pass_moves true hn
  · exact pass_moves false hn

theorem leadingEdge_moves (l : Lane) (s : State) :
    ∃ t, execLeadingEdge l s = .next t ∧ Moves (.leadingEdge l) none s none t := by
  unfold execLeadingEdge
  split
  · exact ⟨s, rfl, .refl⟩
  · refine ⟨_, rfl, Moves.trans (alike_moves (l := l) (fun x => { x with eyeCovered := true }) (LaneS.alike_eyeCovered _ _)) ?_⟩
    split
    · rename_i h
      exact edgeArmed_moves (by rw [State.modLane_lane]; exact fun hh => by rw [h] at hh; cases hh)
    · rename_i h
      exact edgeInGap_moves (by rw [State.modLane_lane]; exact h)
    · exact .refl
    · exact .refl
    · exact .refl

/-- A retirement out of the list with what follows it (R60). -/
theorem retireOne_moves {way : Way} {p : Piece} (hw : way ≠ .lineReset) (hj : canJam l i) (hd : canDrain l i) {u : State}
    (h : Moves i none s (some l) (u.handOff l way p)) : Moves i none s none (u.retireOne l way p) := by
  unfold State.retireOne
  rw [retire_eq_handOff u l p hw]
  exact h.trans ((Outer.appendReport _ _).moves.trans ((updateRate_moves hj (.inr rfl)).trans (drain_moves hd)))

theorem storeLength_moves {a : Option Lane} {p : Piece} {st : Pos} (n : Nat) (hp : s.newest? l = some p)
    (he : (s.lane l).eye = .covered st) : Moves i a s a (s.storeLength l p n) := by
  unfold State.storeLength
  dsimp only
  have ask (u : State) : Moves i a u a
      (match u.piece? l p.tag with
      | some q => if sampleReady (u.lane l) q then u.askSlot l q.tag else u
      | none => u) := by
    split
    · rename_i q hq
      split
      · rename_i hr
        have ht : q.tag = p.tag := by simpa using List.find?_some hq
        unfold sampleReady at hr
        split at hr
        · rename_i hs hn
          exact (LaneMove.ask (ht ▸ hq) hs (by rw [hn]; rfl)).moves
        · cases hr
      · exact .refl
    · exact .refl
  refine Moves.trans ?_ (ask _)
  split
  · exact (LaneMove.measure n hp he).moves.trans (LaneMove.abandon _ l p.tag).moves
  · exact (LaneMove.measure n hp he).moves

theorem trailingEdge_moves (l : Lane) (s : State) :
    ∃ t, execTrailingEdge l s = .next t ∧ Moves (.trailingEdge l) none s none t := by
  unfold execTrailingEdge
  split
  · refine ⟨_, rfl, Moves.trans (alike_moves (l := l) (fun x => { x with eyeCovered := false }) (LaneS.alike_eyeCovered _ _)) ?_⟩
    split
    · rename_i st h
      have he : ((s.modLane l fun x => { x with eyeCovered := false }).lane l).eye = .covered st := by
        rw [State.modLane_lane]; exact h
      unfold State.edgeCovered
      split
      · exact .refl
      · rename_i p hp
        dsimp only
        split
        · rename_i hd
          simp only [Bool.and_eq_true, Bool.not_eq_true'] at hd
          exact retireOne_moves (way := .glitch) (by decide) (by rfl) (by rfl) (LaneMove.glitch rfl hp he hd.2).moves
        · exact storeLength_moves _ hp he
    · rename_i st h
      unfold State.edgePassing
      dsimp only
      refine alike_moves _ (LaneS.alike_eye ?_ ?_ fun st => ?_)
      · rw [State.modLane_lane]; exact fun hh => by rw [h] at hh; cases hh
      · split <;> nofun
      · split <;> nofun
    · exact .refl
    · exact .refl
    · exact .refl
  · exact ⟨s, rfl, .refl⟩

theorem holdEnd_moves (l : Lane) (s : State) : ∃ t, execHoldEnd l s = .next t ∧ Moves i none s none t := by
  refine ⟨_, rfl, ?_⟩
  split
  · rename_i h
    refine alike_moves _ (LaneS.alike_eye (fun hh => ?_) nofun fun _ => nofun)
    unfold LaneS.holdEndDue at h
    rw [hh] at h
    cases h
  · exact .refl

theorem coveredLimit_moves (l : Lane) (s : State) :
    ∃ t, execCoveredLimit l s = .next t ∧ Moves (.coveredLimit l) none s none t := by
  refine ⟨_, rfl, ?_⟩
  split
  · exact jamCause_moves _ rfl
  · exact .refl

end Eye

/-! ### Track events -/

section Events

variable {i : Instr} {s : State} {l : Lane} {tag : Tag}

theorem overlengthPoint_moves (l : Lane) (tag : Tag) (s : State) :
    ∃ t, execOverlengthPoint l tag s = .next t ∧ Moves i none s none t := by
  unfold execOverlengthPoint
  split
  · exact ⟨s, rfl, .refl⟩
  · refine ⟨_, rfl, ?_⟩
    split
    · refine (modPiece_moves s l tag _ fun p => ?_).trans (LaneMove.abandon _ l tag).moves
      exact ⟨⟨rfl, rfl, rfl, rfl, rfl, id⟩, rfl, rfl⟩
    · exact .refl

/-- A record read after a write to its own tag. -/
theorem piece?_modPiece {s : State} {l : Lane} {tag : Tag} {p : Piece} (hp : s.piece? l tag = some p) (f : Piece → Piece)
    (hf : ∀ p, (f p).tag = p.tag) : (s.modPiece l tag f).piece? l tag = some (f p) := by
  suffices h : (s.modPiece l tag f).piece? l tag = (s.piece? l tag).map f by rw [h, hp]; rfl
  unfold State.piece? State.modPiece
  rw [State.modLane_lane]
  show (modTagged tag f (s.lane l).list).find? _ = _
  induction (s.lane l).list with
  | nil => rfl
  | cons p ps ih =>
    by_cases h : p.tag = tag
    · simp [modTagged, h, hf]
    · simpa [modTagged, h] using ih

theorem sampleWaitExpiry_moves (l : Lane) (tag : Tag) (s : State) :
    ∃ t, execSampleWaitExpiry l tag s = .next t ∧ Moves i none s none t := by
  unfold execSampleWaitExpiry
  split
  · exact ⟨s, rfl, .refl⟩
  · rename_i p hp
    refine ⟨_, rfl, ?_⟩
    split
    · rename_i h
      have h1 : Moves i none s none (s.modPiece l tag fun p => { p with sampleWaitDue := false }) :=
        modPiece_moves s l tag _ fun p => ⟨⟨rfl, rfl, rfl, rfl, rfl, id⟩, rfl, rfl⟩
      refine h1.trans ?_
      dsimp only
      split
      · rename_i hs
        have hn : p.length.isSome = true := by
          unfold LaneS.sampleWaitReached at h
          split at h
          · rename_i hn; rw [hn]; rfl
          · cases h
        exact (LaneMove.ask (p := { p with sampleWaitDue := false })
          (piece?_modPiece hp _ (by intro; rfl)) hs hn).moves
      · exact .refl
    · exact .refl

theorem retirement_moves (l : Lane) (tag : Tag) (s : State) :
    ∃ t, execRetirement l tag s = .next t ∧ Moves (.retirement l tag) none s none t := by
  unfold execRetirement
  split
  · exact ⟨s, rfl, .refl⟩
  · rename_i p hp
    refine ⟨_, rfl, ?_⟩
    split
    · rename_i h
      obtain ⟨hd, hk, hn⟩ : p.decisionTaken = true ∧ p.pocketTaken = true ∧ p.length.isSome = true := by
        unfold LaneS.retirementDue at h
        split at h
        · rename_i n hn
          simp only [Bool.and_eq_true] at h
          exact ⟨h.1.1.2, h.1.2, by rw [hn]; rfl⟩
        · cases h
      exact retireOne_moves (way := .ordinary) (by decide) (by rfl) (by rfl) (LaneMove.retire rfl hp hd hk hn).moves
    · exact .refl

theorem placeAll_moves {a : Option Lane} (ms : List ActMsg) (hi : canJam l i) (s : State) : Moves i a s a (s.placeAll l ms) := by
  induction ms generalizing s with
  | nil => exact .refl
  | cons m ms ih =>
    refine Moves.trans (t := if (s.lane l).state = .jammed then s else s.placeAct l m) ?_ (ih _)
    split
    · exact .refl
    · exact placeAct_moves m hi

/-- The gate is none of what the invariants read. -/
theorem LaneS.alike_gate (x : LaneS) (g : Gate) : x.Alike { x with gate := g } := { LaneS.Alike.refl x with }

theorem updateFreePos_moves {a : Option Lane} (p : Piece) : Moves i a s a (s.updateFreePos l p) :=
  alike_moves (fun x =>
    { x with
      gate :=
        { x.gate with
          freePos := advance (gatePos (s.geometry l) p) (extent (s.geometry l) x.eye p + (s.geometry l).gateSettle) } })
    (LaneS.alike_gate _ _)

/-- The record of a decision point is still in the list when its scan has been settled (R74). -/
theorem atDecision_piece? {p : Piece} (hp : s.piece? l tag = some p) : ∃ q, (s.atDecision l tag).piece? l tag = some q := by
  have h1 : (s.modPiece l tag fun q => { q with decisionTaken := true }).piece? l tag
      = some { p with decisionTaken := true } := piece?_modPiece hp _ (by intro; rfl)
  have h2 := (settleScan_kept (s.modPiece l tag fun q => { q with decisionTaken := true }) l tag).piece? l tag
  rw [h1] at h2
  unfold State.atDecision
  generalize State.piece? _ l tag = q at h2 ⊢
  cases h2 with
  | some h => exact ⟨_, rfl⟩

/-- A decision point that is due is one move, and then the frames of the decision (R104, R113). -/
theorem decisionPoint_eq {p : Piece} (hp : s.piece? l tag = some p) (hd : (s.lane l).decisionDue (s.geometry l) p = true) :
    ∃ q, (s.atDecision l tag).piece? l tag = some q
      ∧ execDecisionPoint l tag s = .next ((s.atDecision l tag).decidePiece l q) := by
  obtain ⟨q, hq⟩ := atDecision_piece? hp
  refine ⟨q, hq, ?_⟩
  have hq' : ((s.modPiece l tag fun q => { q with decisionTaken := true }).settleScan l tag).piece? l tag = some q := hq
  unfold execDecisionPoint
  rw [hp]
  simp only [hd, if_true, hq']
  rfl

theorem decisionPoint_moves (l : Lane) (tag : Tag) (s : State) :
    ∃ t, execDecisionPoint l tag s = .next t ∧ Moves (.decisionPoint l tag) none s none t := by
  cases hp : s.piece? l tag with
  | none => exact ⟨s, by unfold execDecisionPoint; rw [hp], .refl⟩
  | some p =>
    by_cases hd : (s.lane l).decisionDue (s.geometry l) p = true
    · obtain ⟨q, hq, h⟩ := decisionPoint_eq hp hd
      exact ⟨_, h, (LaneMove.decide rfl hp hd hq).moves.trans ((updateFreePos_moves q).trans (placeAll_moves _ (by rfl) _))⟩
    · exact ⟨s, by unfold execDecisionPoint; simp [hp, hd], .refl⟩

theorem testInkLow_moves {a : Option Lane} (h : HeadId) (before : Nat) : Moves i a s a (s.testInkLow l h before) := by
  unfold State.testInkLow
  dsimp only
  split
  · exact (setLatch_moves _ _).trans (notice_moves _ _ _)
  · exact .refl

theorem testInkOut_moves {a : Option Lane} (h : HeadId) : Moves i a s a (s.testInkOut l h) := by
  unfold State.testInkOut
  dsimp only
  split
  · exact (modHead_moves _ ⟨rfl, rfl, rfl, id⟩).trans ((setLatch_moves _ _).trans (notice_moves _ _ _))
  · exact .refl

theorem Piece.alike_faulted (p : Piece) : p.Alike p.faulted := by
  refine ⟨⟨rfl, rfl, rfl, rfl, rfl, fun hp => ?_⟩, rfl, rfl⟩
  unfold Piece.faulted
  dsimp only
  split
  · rfl
  · exact hp

theorem Piece.alike_cancel (p : Piece) (c : CancelState) : p.Alike { p with cancel := c } :=
  ⟨⟨rfl, rfl, rfl, rfl, rfl, id⟩, rfl, rfl⟩

theorem suppressStrike_moves {h : HeadId} {k : Strike} (hk : (s.head l h).strike? tag = some k) (hs : k.started = false) :
    Moves (.strikeStart l h tag) none s none (s.suppressStrike l h k) := by
  unfold State.suppressStrike
  refine Moves.trans ?_ (count_moves _ (fun _ => rfl) fun _ => rfl)
  exact (LaneMove.suppress rfl hk hs).moves.trans (modPiece_moves _ l k.tag Piece.faulted Piece.alike_faulted)

theorem fireStrike_moves {h : HeadId} {k : Strike} (hk : (s.head l h).strike? tag = some k) (hs : k.started = false) :
    Moves (.strikeStart l h tag) none s none (s.fireStrike l h k) := by
  have h1 : Moves (.strikeStart l h tag) none s none (s.modHead l h (Head.fire k)) := (LaneMove.fire rfl hk hs).moves
  have h2 := h1.trans (modPiece_moves (s.modHead l h (Head.fire k)) l k.tag (fun p => { p with cancel := .struck })
    fun p => p.alike_cancel _)
  have h3 := h2.trans (count_moves (l := l) (fun c => { c with strikes := satInc Config.max32 c.strikes }) (fun _ => rfl) fun _ => rfl)
  have h4 := h3.trans (testInkLow_moves (l := l) h (s.head l h).units)
  exact h4.trans (testInkOut_moves h)

theorem strikeStart_moves (l : Lane) (h : HeadId) (tag : Tag) (s : State) :
    ∃ t, execStrikeStart l h tag s = .next t ∧ Moves (.strikeStart l h tag) none s none t := by
  unfold execStrikeStart
  split
  · exact ⟨s, rfl, .refl⟩
  · rename_i k hk
    refine ⟨_, rfl, ?_⟩
    split
    · rename_i hd
      simp only [Bool.and_eq_true, Bool.not_eq_true'] at hd
      have hs : k.started = false := hd.1.2
      split
      · exact suppressStrike_moves hk hs
      · exact fireStrike_moves hk hs
    · exact .refl

theorem strikeEnd_moves (l : Lane) (h : HeadId) (tag : Tag) (s : State) :
    ∃ t, execStrikeEnd l h tag s = .next t ∧ Moves (.strikeEnd l h tag) none s none t := by
  unfold execStrikeEnd
  split
  · exact ⟨s, rfl, .refl⟩
  · rename_i k hk
    refine ⟨_, rfl, ?_⟩
    split
    · rename_i hd
      simp only [Bool.and_eq_true] at hd
      exact (LaneMove.endStrike rfl hk hd.1.2).moves
    · exact .refl

/-- A pocket that becomes FULL waits for no sweep (R130). -/
theorem pocketFull_moves {a : Option Lane} (k : Fin 10) (v : Levels) : Moves i a s a (s.pocketFull l k v) :=
  (modPocket_moves _ ⟨rfl, Nat.le_refl _, fun h => by cases h⟩).trans ((setLatch_moves _ _).trans (notice_moves _ _ _))

theorem pocketPoint_moves (l : Lane) (tag : Tag) (s : State) :
    ∃ t, execPocketPoint l tag s = .next t ∧ Moves (.pocketPoint l tag) none s none t := by
  unfold execPocketPoint
  split
  · exact ⟨s, rfl, .refl⟩
  · rename_i p hp
    refine ⟨_, rfl, ?_⟩
    split
    · rename_i hd
      have hk : p.pocketTaken = false := by
        unfold LaneS.pocketPointDue at hd
        simp only [Bool.and_eq_true, Bool.not_eq_true'] at hd
        exact hd.1.1.2
      dsimp only
      split
      · rename_i k hc
        unfold State.takePocket State.assign
        dsimp only
        refine (LaneMove.choose hp hk hc).moves.trans (Moves.trans (b := none) ?_ (placeAct_moves _ (by rfl)))
        split
        · exact pocketFull_moves k _
        · exact .refl
      · exact (LaneMove.passPocket hp).moves.trans (jamCause_moves _ (by rfl))
    · exact .refl

theorem judgeMonitor_moves {a : Option Lane} (w : Window) (m : MonitorId) (ha : a = none ∨ a = some l) :
    ∃ b, (b = none ∨ b = some l) ∧ Moves i a s b (State.judgeMonitor l w s m) := by
  unfold State.judgeMonitor
  dsimp only
  split
  · refine ⟨some l, .inr rfl, ?_⟩
    split
    · exact (LaneMove.judge m _ ha).moves
    · exact (LaneMove.judge m _ ha).moves.trans ((setLatch_moves _ _).trans (notice_moves _ _ _))
  · exact ⟨a, ha, .refl⟩

theorem judgeWindow_moves (w : Window) : ∃ b, (b = none ∨ b = some l) ∧ Moves i none s b (s.judgeWindow l w) := by
  have all (ms : List MonitorId) (a : Option Lane) (s : State) (ha : a = none ∨ a = some l) :
      ∃ b, (b = none ∨ b = some l) ∧ Moves i a s b (ms.foldl (State.judgeMonitor l w) s) := by
    induction ms generalizing a s with
    | nil => exact ⟨a, ha, .refl⟩
    | cons m ms ih =>
      obtain ⟨b, hb, h⟩ := judgeMonitor_moves (i := i) (s := s) w m ha
      obtain ⟨c, hc, h'⟩ := ih b _ hb
      exact ⟨c, hc, h.trans h'⟩
  exact all _ none s (.inl rfl)

/-- The windows of the lanes stay through the judging of a window and its FEED frame, or the lane jams. -/
theorem nextWindow_moves {a : Option Lane} (from' : Pos) (h : (s.lane l).active = true → (s.lane l).window ≠ none) :
    Moves i a s a (s.nextWindow l from') := by
  unfold State.nextWindow
  split
  · rename_i ha
    exact alike_moves _ (LaneS.alike_window ⟨nofun, fun hn => absurd hn (h ha)⟩)
  · exact .refl

end Events

end Sys2Proof.Machine

/-! Every step is a chain of moves: window ends, the engines, the resets and the completions of
commands. -/

namespace Sys2Proof.Machine

/-! ### What the shared operations leave of the interpreter and of a lane -/

theorem within_interp {s t : State} (h : s.Within t) : t.interp = s.interp := by rw [h]

theorem within_store {s t : State} (h : s.Within t) : t.store = s.store := by rw [h]

theorem handOff_within (s : State) (l : Lane) (way : Way) (p : Piece) : s.Within (s.handOff l way p) := by
  rw [handOff_eq_withLanes]
  rfl

theorem handOffAll_within (s : State) (l : Lane) (way : Way) : s.Within (s.handOffAll l way) := by
  have all (ps : List Piece) (u : State) : u.Within (ps.foldl (fun s p => s.handOff l way p) u) := by
    induction ps generalizing u with
    | nil => rfl
    | cons p ps ih => exact (handOff_within u l way p).trans (ih _)
  exact all _ s

section Keeps

variable (s : State) (l : Lane)

@[simp] theorem withdrawLane_interp : (s.withdrawLane l).interp = s.interp := within_interp (withdrawLane_kept s l).within

@[simp] theorem jam_interp (cause : JamCause) (fromFeed : Bool) : (s.jam l cause fromFeed).interp = s.interp := by
  unfold State.jam State.emptyBookings
  dsimp only
  split <;> simp

/-- A jammed lane is JAMMED (R58). -/
theorem jam_lane_state (cause : JamCause) (fromFeed : Bool) : ((s.jam l cause fromFeed).lane l).state = .jammed := by
  unfold State.jam State.emptyBookings
  simp only [State.setLatch_lane, State.notice_lane, State.closeBatch_lane]
  rw [((withdrawLane_kept _ l).lanes l).state, State.modLane_lane]
  dsimp only
  split <;> simp [LaneS.jam]

@[simp] theorem placeAct_interp (m : ActMsg) : (s.placeAct l m).interp = s.interp := by
  by_cases h : (s.link.act.get l).length < 8
  · rw [placeAct_room h]; simp
  · rw [placeAct_full (by omega)]
    split <;> simp

@[simp] theorem updateRate_interp : (s.updateRate l).interp = s.interp := by
  unfold State.updateRate
  dsimp only
  split <;> simp

@[simp] theorem laneTo_interp (st : LaneState) : (s.laneTo l st).interp = s.interp := by rw [laneTo_eq]; simp

@[simp] theorem drain_interp : (s.drain l).interp = s.interp := by
  unfold State.drain
  split <;> simp

@[simp] theorem appendReports_interp (rs : List PieceReport) : (s.appendReports rs).interp = s.interp := by
  induction rs generalizing s with
  | nil => rfl
  | cons r rs ih => exact (ih _).trans (by simp)

@[simp] theorem appendReports_lane (rs : List PieceReport) (m : Lane) : (s.appendReports rs).lane m = s.lane m := by
  induction rs generalizing s with
  | nil => rfl
  | cons r rs ih => exact (ih _).trans (by simp)

/-- The lane that still moves after its FEED frame has kept its window (R154). -/
theorem updateRate_window (h : ((s.updateRate l).lane l).active = true) :
    ((s.updateRate l).lane l).window = (s.lane l).window := by
  revert h
  unfold State.updateRate
  dsimp only
  split
  · exact fun _ => rfl
  · generalize hu : (s.modLane l fun x => { x with feedRate := (s.lane l).wantedRate }) = u
    have hw : (u.lane l).window = (s.lane l).window := by rw [← hu, State.modLane_lane]
    by_cases hr : (u.link.act.get l).length < 8
    · rw [placeAct_room hr]
      simp [hw]
    · rw [placeAct_full (by omega)]
      split
      · intro h
        unfold LaneS.active at h
        rw [jam_lane_state] at h
        cases h
      · exact fun _ => hw

theorem judgeMonitor_window (w : Window) (m : MonitorId) : ((State.judgeMonitor l w s m).lane l).window = (s.lane l).window := by
  unfold State.judgeMonitor
  dsimp only
  split
  · split <;> simp
  · rfl

theorem judgeWindow_window (w : Window) : ((s.judgeWindow l w).lane l).window = (s.lane l).window := by
  simp [State.judgeWindow, judgeMonitor_window]

end Keeps

theorem windowEnd_moves (l : Lane) (s : State) : ∃ t, execWindowEnd l s = .next t ∧ Moves (.windowEnd l) none s none t := by
  unfold execWindowEnd
  split
  · exact ⟨s, rfl, .refl⟩
  · rename_i w hw
    refine ⟨_, rfl, ?_⟩
    split
    · obtain ⟨b, hb, h⟩ := judgeWindow_moves (i := .windowEnd l) (s := s) (l := l) w
      refine h.trans ((updateRate_moves (by rfl) hb).trans (nextWindow_moves _ fun ha => ?_))
      rw [updateRate_window _ _ ha, judgeWindow_window, hw]
      nofun
    · exact .refl

/-! ### The engines -/

section Engines

variable {i : Instr}

theorem commandTake_moves (s : State) : ∃ t, execCommandTake s = .next t ∧ Moves i none s none t := by
  refine ⟨_, rfl, ?_⟩
  split
  · rename_i h1 h2
    exact (Outer.take h1 h2).moves
  · exact .refl

theorem engineTake_moves (s : State) : ∃ t, execEngineTake s = .next t ∧ Moves i none s none t :=
  ⟨_, rfl, (LaneMove.takeJob s).moves⟩

theorem scoringComplete_moves (s : State) : ∃ t, execScoringComplete s = .next t ∧ Moves i none s none t := by
  unfold execScoringComplete
  split
  · exact ⟨s, rfl, .refl⟩
  · rename_i j h
    exact ⟨_, rfl, (LaneMove.finish h).moves.trans (LaneMove.takeJob _).moves⟩

/-! ### Entries applied -/

theorem settlePocket_moves {a : Option Lane} (l : Lane) (k : Fin 10) (v : Levels) (s : State) :
    Moves i a s a (s.settlePocket l k v) := by
  unfold State.settlePocket
  dsimp only
  split
  · split
    · exact pocketFull_moves k v
    · exact .refl
  · split
    · exact modPocket_moves _ ⟨rfl, Nat.le_refl _, fun h => by cases h⟩
    · exact .refl
  · exact .refl
  · exact .refl

theorem applyEntry_moves {a : Option Lane} {e : Entry} {s : State} (h : s.store.phase.next? = some e) :
    Moves i a s a (s.applyEntry e) := by
  have h1 : Moves i a s a (s.enterEntry e) := (StoreMove.enter h).moves
  cases e with
  | levels l k v => exact h1.trans (settlePocket_moves l k _ _)
  | _ => exact h1

theorem modTables_phase (s : State) (f : Tables → Tables) : (s.modTables f).store.phase = s.store.phase := rfl

theorem settlePocket_store (l : Lane) (k : Fin 10) (v : Levels) (s : State) : (s.settlePocket l k v).store = s.store := by
  unfold State.settlePocket State.pocketFull State.modPocket
  dsimp only
  split
  · split <;> simp
  · split <;> simp
  · rfl
  · rfl

theorem applyEntry_phase (s : State) (e : Entry) : (s.applyEntry e).store.phase = s.store.phase := by
  cases e with
  | levels l k v =>
    show (State.settlePocket _ l k _).store.phase = _
    rw [settlePocket_store]
    rfl
  | _ => rfl

/-- An applied PUT stands in the Signature Table, an applied DROP does not (R93). -/
theorem applyEntry_entered (s : State) (e : Entry) : e.Entered (s.applyEntry e).store.tables.signature := by
  have put (e : SigEntry) (t : List SigEntry) : e ∈ putSignature e t := by
    induction t with
    | nil => exact List.mem_singleton.2 rfl
    | cons d t ih =>
      unfold putSignature
      split
      · exact List.mem_cons_self
      · split
        · exact List.mem_cons_self
        · exact List.mem_cons_of_mem _ ih
  cases e with
  | put e => exact ⟨e, put e _, rfl⟩
  | drop k =>
    intro d hd
    have hd : d ∈ dropSignature k s.store.tables.signature := hd
    simp only [dropSignature, List.mem_filter, Bool.not_eq_true', beq_eq_false_iff_ne] at hd
    exact hd.2
  | _ => trivial

theorem entryApplication_moves (s : State) : ∃ t, execEntryApplication s = .next t ∧ Moves i none s none t := by
  have both {e : Entry} (h : s.store.phase.next? = some e) : Moves i none s none (s.applyEntry e).pastEntry :=
    (applyEntry_moves h).trans (StoreMove.past (by rw [applyEntry_phase]; exact h) (applyEntry_entered s e)).moves
  refine ⟨_, rfl, ?_⟩
  split
  · rename_i p mark hp
    split
    · exact .refl
    · rename_i e rest ht
      have hb := both (e := e) (by rw [hp]; simp [Phase.next?, ht])
      unfold State.pastEntry at hb
      rw [applyEntry_phase, hp] at hb
      simpa [ht] using hb
  · rename_i p q hp
    split
    · exact .refl
    · rename_i e rest ht
      have hb := both (e := e) (by rw [hp]; simp [Phase.next?, ht])
      unfold State.pastEntry at hb
      rw [applyEntry_phase, hp] at hb
      simpa [ht] using hb
  all_goals exact .refl

end Engines

/-! ### Resets -/

/-- An ACT frame that joins its queue leaves the other queues no longer. -/
theorem joinAct_act_length_le (s : State) (l k : Lane) (m : ActMsg) :
    ((s.joinAct l m).link.act.get k).length ≤ (s.link.act.get k).length + 1 := by
  have key : ∀ u : State, (u.arbitrate.link.act.get k).length ≤ (u.link.act.get k).length := by
    intro u
    rcases u.arbitrate_cases with h | ⟨_, ⟨j, h⟩ | h | h⟩ <;> rw [h]
    · unfold State.grantAct
      split
      · exact Nat.le_refl _
      · rename_i f fs hf
        show ((u.link.act.set j fs).get k).length ≤ _
        rw [PerLane.get_set_eq]
        split
        · rename_i hk
          rw [hk, hf]
          simp
        · exact Nat.le_refl _
    · simp
    · simp
  refine (key _).trans ?_
  show ((s.link.act.set l (s.link.act.get l ++ [s.actFrame l m])).get k).length ≤ _
  rw [PerLane.get_set_eq]
  split
  · rename_i hk
    simp [hk]
  · omega

section Resets

variable {i : Instr}

theorem resetFrames_moves {a : Option Lane} (l : Lane) (rate : FeedRate) {s : State} {n : Nat} (hn : n ≤ 6)
    (h : ∀ k, (s.link.act.get k).length ≤ n) :
    Moves i a s a (resetFrames l rate s) ∧ ∀ k, ((resetFrames l rate s).link.act.get k).length ≤ n + 2 := by
  have h1 := fun k => joinAct_act_length_le s l k .safe
  have m1 : Moves i a s a (s.joinAct l .safe) := joinAct_moves s .safe (by have := h l; omega)
  unfold resetFrames
  dsimp only
  split
  · exact ⟨m1, fun k => by have := h1 k; have := h k; omega⟩
  · refine ⟨m1.trans (joinAct_moves _ _ ?_), fun k => ?_⟩
    · have := h1 l; have := h l; omega
    · have := joinAct_act_length_le (s.joinAct l .safe) l k (.feed .hold)
      have := h1 k; have := h k; omega

theorem lineReset_moves (hi : resets i = true) (s : State) : Moves i none s none s.lineReset := by
  unfold State.lineReset
  dsimp only
  refine (Move.reset s hi).single.trans ((Outer.emptyAct _ .a).moves.trans ((Outer.emptyAct _ .b).moves.trans ?_))
  show Moves i none _ none (State.inEitherOrder ((s.resetBlocks.emptyAct .a).emptyAct .b) _ _)
  generalize hu : (s.resetBlocks.emptyAct .a).emptyAct .b = u
  have h0 : ∀ k, (u.link.act.get k).length ≤ 0 := by
    rw [← hu]
    intro k
    cases k <;> simp [State.emptyAct, PerLane.get, PerLane.set]
  unfold State.inEitherOrder
  split
  · obtain ⟨m1, h1⟩ := resetFrames_moves (i := i) (a := none) .a (s.lane .a).feedRate (s := u.drawn) (by omega) h0
    obtain ⟨m2, -⟩ := resetFrames_moves (i := i) (a := none) .b (s.lane .b).feedRate (n := 0 + 2) (by omega) h1
    exact (drawn_moves u).trans (m1.trans m2)
  · obtain ⟨m1, h1⟩ := resetFrames_moves (i := i) (a := none) .b (s.lane .b).feedRate (s := u.drawn) (by omega) h0
    obtain ⟨m2, -⟩ := resetFrames_moves (i := i) (a := none) .a (s.lane .a).feedRate (n := 0 + 2) (by omega) h1
    exact (drawn_moves u).trans (m1.trans m2)

theorem resetInput_moves (s : State) : ∃ t, execResetInput s = .next t ∧ Moves .resetInput none s none t := by
  refine ⟨_, rfl, ?_⟩
  split
  · exact .refl
  · exact (lineReset_moves rfl s).trans (State.Aside.moves (by constructor <;> rfl))

end Resets

end Sys2Proof.Machine

/-! Every completion of a command is a chain of moves, and so is every step; no step is refused, and the
waiting steps stay (2.1). -/

namespace Sys2Proof.Machine

section Completions

variable {i : Instr} {a : Option Lane} {s : State} {c : Cmd}

/-- A completion is the answer to arguments that fail a check, or what its block does with the read ones
(R20). -/
theorem completion_moves {α : Type} {code : Byte} {parse : List Byte → Args α} {act : State → Cmd → α → State}
    (h : ∀ c x, s.interp.executing = some c → parse c.args = .valid x → Moves i none s none (act s c x)) :
    Moves i none s none (s.completion code parse act) := by
  unfold State.completion State.executingCode
  cases he : s.interp.executing with
  | none => exact .refl
  | some c =>
    by_cases hc : c.code = code
    · simp only [Option.filter, hc, beq_self_eq_true, if_true]
      split
      · exact (Outer.complete _ _ he).moves
      · exact (Outer.complete _ _ he).moves
      · exact h c _ he ‹_›
    · simp only [Option.filter, beq_iff_eq, hc, if_false]
      exact .refl

/-- The answer after an effect that leaves the interpreter alone. -/
theorem Moves.complete {u : State} (h : Moves i a s a u) (he : s.interp.executing = some c) (hi : u.interp = s.interp)
    (rc : ResponseCode) (d : List Byte) : Moves i a s a (u.complete c rc d) :=
  h.trans (Outer.complete rc d (by rw [hi]; exact he)).moves

theorem complete_moves (he : s.interp.executing = some c) (rc : ResponseCode) (d : List Byte) :
    Moves i a s a (s.complete c rc d) := (Outer.complete rc d he).moves

/-- The answer after an effect on nothing that the invariants read. -/
theorem aside_complete_moves {u : State} (he : s.interp.executing = some c) (rc : ResponseCode) (d : List Byte)
    (h : s.Aside u) : Moves i a s a (u.complete c rc d) := Moves.complete h.moves he h.interp rc d

theorem unknownCommand_moves (s : State) : ∃ t, execUnknownCommand s = .next t ∧ Moves i none s none t := by
  refine ⟨_, rfl, ?_⟩
  split
  · exact .refl
  · rename_i c he
    split
    · exact .refl
    · exact complete_moves he _ _

theorem linkAddress_moves (s : State) : ∃ t, execLinkAddress s = .next t ∧ Moves i none s none t :=
  ⟨_, rfl, completion_moves fun _ _ he _ => aside_complete_moves he _ _ (by constructor <;> rfl)⟩

theorem linkCountersClear_moves (s : State) : ∃ t, execLinkCountersClear s = .next t ∧ Moves i none s none t :=
  ⟨_, rfl, completion_moves fun _ _ he _ => aside_complete_moves he _ _ (by constructor <;> rfl)⟩

theorem statusRead_moves (s : State) : ∃ t, execStatusRead s = .next t ∧ Moves i none s none t :=
  ⟨_, rfl, completion_moves fun _ _ he _ => complete_moves he _ _⟩

theorem laneTrackRead_moves (s : State) : ∃ t, execLaneTrackRead s = .next t ∧ Moves i none s none t :=
  ⟨_, rfl, completion_moves fun _ _ he _ => complete_moves he _ _⟩

/-! ### Mask and batch -/

/-- The batch that a command closes as it turns piece reporting off is empty from then on (R25, R27). -/
theorem closeWhenOff_moves (on : Bool) (s : State) :
    Moves i a s a (s.closeWhenOff on)
      ∧ (on = false → (s.closeWhenOff on).pieceReporting = false ∨ (s.closeWhenOff on).reports.batch = [])
      ∧ (s.closeWhenOff on).interp = s.interp := by
  unfold State.closeWhenOff
  split
  · exact ⟨(Outer.closeBatch s).moves, fun _ => .inr (by simp), by simp⟩
  · rename_i h
    refine ⟨.refl, fun ho => .inl ?_, rfl⟩
    cases hp : s.pieceReporting
    · rfl
    · exact absurd (by rw [hp, ho]; rfl) h

theorem noticeMask_moves (s : State) : ∃ t, execNoticeMask s = .next t ∧ Moves i none s none t := by
  refine ⟨_, rfl, completion_moves fun c m he _ => ?_⟩
  obtain ⟨h1, h2, h3⟩ := closeWhenOff_moves (i := i) (a := none) (pieceOn m) s
  exact (h1.trans (Outer.setMask m h2).moves).complete he h3 _ _

theorem pieceReport_moves (s : State) : ∃ t, execPieceReport s = .next t ∧ Moves i none s none t := by
  refine ⟨_, rfl, completion_moves fun c x he hx => ?_⟩
  obtain ⟨h1, h2, h3⟩ := closeWhenOff_moves (i := i) (a := none) x.1 s
  have hl : 1 ≤ x.2 ∧ x.2 ≤ 8 := by
    unfold pieceReportArgs at hx
    split at hx
    · rename_i sw n
      unfold inRange at hx
      split at hx
      · rename_i y hy
        cases hx
        simp only [Option.bind_eq_bind, Option.bind_eq_some_iff, Option.pure_def, Option.some.injEq] at hy
        obtain ⟨b, -, m, hm, rfl⟩ := hy
        have := within_eq_some.1 hm
        dsimp only
        omega
      · cases hx
    · cases hx
  refine (h1.trans (Outer.setPieceReport x.1 h2 hl).moves).complete he ?_ _ _
  unfold State.closeWhenFull
  split
  · exact (State.closeBatch_keeps _).2.2.2.2.2.2.2.1.trans h3
  · exact h3

theorem reportFlush_moves (s : State) : ∃ t, execReportFlush s = .next t ∧ Moves i none s none t :=
  ⟨_, rfl, completion_moves fun _ _ he _ => (Outer.closeBatch s).moves.complete he (by simp) _ _⟩

theorem clearIndications_moves (s : State) : ∃ t, execClearIndications s = .next t ∧ Moves i none s none t :=
  ⟨_, rfl, completion_moves fun _ _ he _ => aside_complete_moves he _ _ (by constructor <;> rfl)⟩

/-! ### LINE_RESET -/

theorem handOffAll_reports (s : State) (l : Lane) (way : Way) : (s.handOffAll l way).reports = s.reports := by
  rw [handOffAll_within s l way]

theorem resetLane_slots (s : State) (l : Lane) :
    (s.resetLane l).reports.queued = s.reports.queued ∧ (s.resetLane l).reports.reserved = s.reports.reserved := by
  have h : ∀ (u : State) (x : LaneState), (u.latchChange x).reports.queued = u.reports.queued
      ∧ (u.latchChange x).reports.reserved = u.reports.reserved := by
    intro u x
    unfold State.latchChange
    split <;> simp
  unfold State.resetLane
  rw [(h _ _).1, (h _ _).2]
  rw [retireAll_lineReset]
  simp [handOffAll_reports, State.emptyBookings]

/-- A line reset leaves no report frame queued and no slot reserved (R35). -/
theorem lineReset_slots (s : State) : s.lineReset.reports.queued.length = 0 ∧ s.lineReset.reports.reserved = 0 := by
  have join (u : State) (l : Lane) (m : ActMsg) :
      (u.joinAct l m).reports.queued.length ≤ u.reports.queued.length ∧ (u.joinAct l m).reports.reserved = u.reports.reserved :=
    ⟨State.arbitrate_queued_le _, by simp⟩
  have frames (u : State) (l : Lane) (r : FeedRate) :
      (resetFrames l r u).reports.queued.length ≤ u.reports.queued.length
        ∧ (resetFrames l r u).reports.reserved = u.reports.reserved := by
    unfold resetFrames
    dsimp only
    split
    · exact join u l _
    · exact ⟨(join _ l _).1.trans (join u l _).1, (join _ l _).2.trans (join u l _).2⟩
  have store (u : State) : u.resetStore.reports.queued = u.reports.queued
      ∧ u.resetStore.reports.reserved = u.reports.reserved := by
    unfold State.resetStore
    split <;> simp [State.setPhase, State.setFlag]
  have blocks : s.resetBlocks.reports.queued = [] ∧ s.resetBlocks.reports.reserved = 0 := by
    unfold State.resetBlocks
    rw [(resetLane_slots _ .b).1, (resetLane_slots _ .b).2, (resetLane_slots _ .a).1, (resetLane_slots _ .a).2]
    exact ⟨(store _).1, (store _).2⟩
  have e : s.lineReset = State.inEitherOrder ((s.resetBlocks.emptyAct .a).emptyAct .b)
      (resetFrames .a (s.lane .a).feedRate) (resetFrames .b (s.lane .b).feedRate) := rfl
  rw [e]
  generalize hu : (s.resetBlocks.emptyAct .a).emptyAct .b = u
  have h0 : u.drawn.reports.queued.length = 0 ∧ u.drawn.reports.reserved = 0 := by
    rw [← hu]
    exact ⟨congrArg List.length blocks.1, blocks.2⟩
  unfold State.inEitherOrder
  split
  · exact ⟨Nat.le_zero.1 ((frames _ .b _).1.trans ((frames _ .a _).1.trans h0.1.le)),
      (frames _ .b _).2.trans ((frames _ .a _).2.trans h0.2)⟩
  · exact ⟨Nat.le_zero.1 ((frames _ .a _).1.trans ((frames _ .b _).1.trans h0.1.le)),
      (frames _ .a _).2.trans ((frames _ .b _).2.trans h0.2)⟩

theorem execLineReset_moves (s : State) : ∃ t, execLineReset s = .next t ∧ Moves .lineReset none s none t := by
  refine ⟨_, rfl, completion_moves fun c _ _ _ => (lineReset_moves rfl s).trans (Outer.answerReset c ?_).moves⟩
  obtain ⟨h1, h2⟩ := lineReset_slots s
  unfold State.slotFree
  rw [h1, h2]
  rfl

/-! ### Lanes -/

theorem laneStart_moves (s : State) : ∃ t, execLaneStart s = .next t ∧ Moves .laneStart none s none t := by
  refine ⟨_, rfl, completion_moves fun c l he _ => ?_⟩
  have run {u : State} (hu : u.interp = s.interp)
      (h : LaneMove .laneStart none s (some l) (u.modLane l fun x => { x with state := .running })) :
      Moves .laneStart none s none ((u.run l).done c) := by
    refine Moves.complete (Moves.trans (b := some l) (t := u.laneTo l .running) ?_ (updateRate_moves (by trivial) (.inr rfl))) he
      (by rw [updateRate_interp, laneTo_interp, hu]) _ _
    rw [laneTo_eq]
    exact h.moves.trans ((setLatch_moves _ _).trans (notice_moves _ _ _))
  have go : (s.lane l).state = .stopped ∨ (s.lane l).state = .draining →
      Moves .laneStart none s none (if s.readyToStart l then (s.startLane l).done c else s.complete c .notReady []) := by
    intro hst
    split
    · unfold State.startLane
      rcases hst with h | h
      · rw [h]
        refine run rfl ?_
        rw [State.modLane_modLane]
        exact .start rfl h
      · rw [h]
        exact run rfl (.resume rfl h)
    · exact complete_moves he _ _
  split
  · exact complete_moves he _ _
  · exact complete_moves he _ _
  · exact go (.inl ‹_›)
  · exact go (.inr ‹_›)

theorem laneStop_moves (s : State) : ∃ t, execLaneStop s = .next t ∧ Moves .laneStop none s none t := by
  refine ⟨_, rfl, completion_moves fun c l he _ => ?_⟩
  split
  · rename_i h
    refine Moves.complete ?_ he (by simp [State.stopLane]) _ _
    have hs : (s.closeBatch.lane l).state = .running := by simpa using h
    exact (Outer.closeBatch s).moves.trans ((laneTo_moves (.stop rfl hs)).trans
      ((updateRate_moves (by trivial) (.inr rfl)).trans (drain_moves (by trivial))))
  · exact complete_moves he _ _
  · exact complete_moves he _ _
  · exact complete_moves he _ _

/-- The disposition counter of a retired record's disposition rises in its lane (R146). -/
def LaneS.countRetired (p : Piece) (x : LaneS) : LaneS :=
  match p.disposition with
  | none => x
  | some d => { x with counters := x.counters.disposed d }

/-- A retired record leaves its pocket's inbound (R138). -/
def LaneS.pocketRetired (way : Way) (p : Piece) (x : LaneS) : LaneS :=
  match p.pocket with
  | none => x
  | some k => { x with pockets := x.pockets.set k.val (Pocket.retire way p (x.pockets.get k)) k.isLt }

/-- An ordinary retirement with a rejected disposition counts in the window (R155). -/
def LaneS.windowRetired (way : Way) (p : Piece) (x : LaneS) : LaneS :=
  match way, p.disposition with
  | .ordinary, some d =>
    if d.rejected then { x with window := x.window.map fun w => { w with reject := satInc Config.max16 w.reject } } else x
  | _, _ => x

/-- A lane that has handed off a record (R60). -/
def LaneS.handOff (way : Way) (p : Piece) (x : LaneS) : LaneS :=
  (((x.drop p.tag).countRetired (retired way p)).pocketRetired way (retired way p)).windowRetired way (retired way p)

theorem countRetired_eq_modLane (s : State) (l : Lane) (way : Way) (p : Piece) :
    s.countRetired l way p = { s with categories := (s.countRetired l way p).categories }.modLane l (LaneS.countRetired p) := by
  unfold State.countRetired LaneS.countRetired
  cases p.disposition with
  | none => exact (State.modLane_id s l _ rfl).symm
  | some d =>
    dsimp only
    split <;> rfl

theorem pocketRetired_eq_modLane (s : State) (l : Lane) (way : Way) (p : Piece) :
    s.pocketRetired l way p = s.modLane l (LaneS.pocketRetired way p) := by
  unfold State.pocketRetired LaneS.pocketRetired
  cases p.pocket with
  | none => exact (State.modLane_id s l _ rfl).symm
  | some k => rfl

theorem windowRetired_eq_modLane (s : State) (l : Lane) (way : Way) (p : Piece) :
    s.windowRetired l way p = s.modLane l (LaneS.windowRetired way p) := by
  have same : s = s.modLane l fun x => x := (State.modLane_id s l _ rfl).symm
  unfold State.windowRetired LaneS.windowRetired
  cases way with
  | ordinary =>
    cases p.disposition with
    | none => exact same
    | some d =>
      cases hd : d.rejected with
      | true => simp [hd, State.countWindow]
      | false => simpa [hd] using same
  | glitch => exact same
  | jamClear => exact same
  | lineReset => exact same

/-- A hand-off changes its lane, and a category record at most (R60). -/
theorem handOff_eq_modLane (s : State) (l : Lane) (way : Way) (p : Piece) :
    s.handOff l way p = { s with categories := (s.handOff l way p).categories }.modLane l (LaneS.handOff way p) := by
  unfold State.handOff
  dsimp only
  rw [windowRetired_eq_modLane, pocketRetired_eq_modLane, countRetired_eq_modLane]
  simp only [State.modLane_modLane]
  cases l <;> rfl

theorem LaneS.countRetired_eq (p : Piece) (x : LaneS) : ∃ c, x.countRetired p = { x with counters := c } := by
  unfold LaneS.countRetired
  split
  · exact ⟨_, rfl⟩
  · exact ⟨_, rfl⟩

theorem LaneS.pocketRetired_eq (way : Way) (p : Piece) (x : LaneS) :
    ∃ ks, x.pocketRetired way p = { x with pockets := ks } := by
  unfold LaneS.pocketRetired
  split
  · exact ⟨_, rfl⟩
  · exact ⟨_, rfl⟩

theorem LaneS.windowRetired_eq (way : Way) (p : Piece) (x : LaneS) :
    ∃ w, x.windowRetired way p = { x with window := w } ∧ (w = none ↔ x.window = none) := by
  unfold LaneS.windowRetired
  split
  · split
    · exact ⟨_, rfl, Option.map_eq_none_iff⟩
    · exact ⟨_, rfl, .rfl⟩
  · exact ⟨_, rfl, .rfl⟩

/-- A hand-off drops the record; of the lane's own fields it changes counters, pockets and the open
window's counts besides (R60). -/
theorem LaneS.handOff_eq (way : Way) (p : Piece) (x : LaneS) :
    ∃ c ks w, x.handOff way p = { x.drop p.tag with counters := c, pockets := ks, window := w }
      ∧ (w = none ↔ x.window = none) := by
  obtain ⟨c, h1⟩ := (x.drop p.tag).countRetired_eq (retired way p)
  obtain ⟨ks, h2⟩ := ((x.drop p.tag).countRetired (retired way p)).pocketRetired_eq way (retired way p)
  obtain ⟨w, h3, hw⟩ :=
    (((x.drop p.tag).countRetired (retired way p)).pocketRetired way (retired way p)).windowRetired_eq way (retired way p)
  refine ⟨c, ks, w, ?_, ?_⟩
  · rw [LaneS.handOff, h3, h2, h1]
  · rw [hw, h2, h1]
    rfl

theorem handOff_lane (s : State) (l : Lane) (way : Way) (p : Piece) :
    (s.handOff l way p).lane l = (s.lane l).handOff way p := by
  rw [handOff_eq_modLane, State.modLane_lane]
  rfl

theorem handOff_lane_ne (s : State) {l m : Lane} (way : Way) (p : Piece) (h : m ≠ l) :
    (s.handOff l way p).lane m = s.lane m := by
  rw [handOff_eq_modLane, State.modLane_lane_ne _ _ h]
  rfl

/-- A lane that has handed off records one after another. -/
def LaneS.handOffs (way : Way) (ps : List Piece) (x : LaneS) : LaneS := ps.foldl (fun x p => x.handOff way p) x

theorem handOffAll_lane_eq (s : State) (l : Lane) (way : Way) :
    (s.handOffAll l way).lane l = (s.lane l).handOffs way (s.lane l).list := by
  have all (ps : List Piece) (u : State) :
      (ps.foldl (fun s p => s.handOff l way p) u).lane l = (u.lane l).handOffs way ps := by
    induction ps generalizing u with
    | nil => rfl
    | cons p ps ih => exact (ih _).trans (by rw [handOff_lane]; rfl)
  exact all _ s

theorem handOffAll_lane_ne (s : State) {l m : Lane} (way : Way) (h : m ≠ l) : (s.handOffAll l way).lane m = s.lane m := by
  have all (ps : List Piece) (u : State) : (ps.foldl (fun s p => s.handOff l way p) u).lane m = u.lane m := by
    induction ps generalizing u with
    | nil => rfl
    | cons p ps ih => exact (ih _).trans (handOff_lane_ne u way p h)
  exact all _ s

/-- Handing off keeps a lane's state, eye, marks, rate, monitors and tags (R60). -/
theorem LaneS.handOffs_keeps (way : Way) (ps : List Piece) (x : LaneS) :
    (x.handOffs way ps).state = x.state ∧ (x.handOffs way ps).eye = x.eye
      ∧ (x.handOffs way ps).forwardMark = x.forwardMark ∧ (x.handOffs way ps).feedRate = x.feedRate
      ∧ (x.handOffs way ps).monitors = x.monitors ∧ (x.handOffs way ps).nextTag = x.nextTag
      ∧ (x.handOffs way ps).rings = x.rings ∧ (x.handOffs way ps).belt = x.belt
      ∧ ((x.handOffs way ps).window = none ↔ x.window = none) := by
  induction ps generalizing x with
  | nil => exact ⟨rfl, rfl, rfl, rfl, rfl, rfl, rfl, rfl, .rfl⟩
  | cons p ps ih =>
    obtain ⟨h1, h2, h3, h4, h5, h6, h7, h8, h9⟩ := ih (x.handOff way p)
    obtain ⟨c, ks, w, e, hw⟩ := x.handOff_eq way p
    rw [e] at h1 h2 h3 h4 h5 h6 h7 h8 h9
    refine ⟨?_, ?_, ?_, ?_, ?_, ?_, ?_, ?_, ?_⟩ <;> rw [LaneS.handOffs, List.foldl_cons, e]
    · exact h1
    · exact h2
    · exact h3
    · exact h4
    · exact h5
    · exact h6
    · exact h7
    · exact h8
    · exact h9.trans hw

/-- Handing off every record of a list leaves none (R59, R61). -/
theorem LaneS.handOffs_list (way : Way) (ps : List Piece) (x : LaneS) (h : ∀ q ∈ x.list, ∃ p ∈ ps, p.tag = q.tag) :
    (x.handOffs way ps).list = [] := by
  induction ps generalizing x with
  | nil =>
    refine List.eq_nil_iff_forall_not_mem.2 fun q hq => ?_
    obtain ⟨p, hp, -⟩ := h q hq
    cases hp
  | cons p ps ih =>
    refine ih (x.handOff way p) fun q hq => ?_
    obtain ⟨c, ks, w, e, -⟩ := x.handOff_eq way p
    rw [e, LaneS.drop, List.mem_filter] at hq
    obtain ⟨r, hr, hrq⟩ := h q hq.1
    rcases List.mem_cons.1 hr with rfl | hr
    · simp [hrq] at hq
    · exact ⟨r, hr, hrq⟩

/-- Handing off every record of a list leaves the list empty and the lane in its state (R59, R61). -/
theorem handOffAll_lane (s : State) (l : Lane) (way : Way) :
    ((s.handOffAll l way).lane l).list = [] ∧ ((s.handOffAll l way).lane l).state = (s.lane l).state := by
  rw [handOffAll_lane_eq]
  exact ⟨LaneS.handOffs_list _ _ _ fun q hq => ⟨q, hq, rfl⟩, (LaneS.handOffs_keeps _ _ _).1⟩

theorem jamClear_moves (s : State) : ∃ t, execJamClear s = .next t ∧ Moves .jamClear none s none t := by
  refine ⟨_, rfl, completion_moves fun c l he _ => ?_⟩
  split
  · rename_i h
    obtain ⟨hl, hs⟩ := handOffAll_lane s l .jamClear
    unfold State.clearJam
    rw [retireAll_jamClear]
    refine Moves.complete ?_ he (by simp [within_interp (handOffAll_within s l .jamClear)]) _ _
    exact (LaneMove.clear rfl h).moves.trans ((appendReports_moves _ _).trans
      (laneTo_moves (.leaveJam rfl (by simp [hs, h]) (by simp [hl]))))
  · exact complete_moves he _ _
  · exact complete_moves he _ _
  · exact complete_moves he _ _

/-! ### Audit, ink, date, pockets and counts -/

/-- The audit counter is none of what the invariants read. -/
theorem LaneS.alike_auditCounter (x : LaneS) (n : Nat) : x.Alike { x with auditCounter := n } := { LaneS.Alike.refl x with }

theorem pieceAudit_moves (s : State) : ∃ t, execPieceAudit s = .next t ∧ Moves i none s none t := by
  refine ⟨_, rfl, completion_moves fun c n he _ => Moves.complete (u := s.setAudit n) ?_ he rfl _ _⟩
  have h1 : Moves i none s none { s with scan := { s.scan with auditInterval := n } } :=
    State.Aside.moves (by constructor <;> rfl)
  exact h1.trans ((alike_moves (l := .a) (fun x => { x with auditCounter := 0 }) (LaneS.alike_auditCounter _ _)).trans
    (alike_moves (l := .b) (fun x => { x with auditCounter := 0 }) (LaneS.alike_auditCounter _ _)))

theorem auditRead_moves (s : State) : ∃ t, execAuditRead s = .next t ∧ Moves i none s none t := by
  refine ⟨_, rfl, completion_moves fun c n he _ => ?_⟩
  split
  · exact complete_moves he _ _
  · exact complete_moves he _ _

theorem auditRelease_moves (s : State) : ∃ t, execAuditRelease s = .next t ∧ Moves i none s none t :=
  ⟨_, rfl, completion_moves fun _ _ he _ => aside_complete_moves he _ _ (by constructor <;> rfl)⟩

theorem inkRefill_moves (s : State) : ∃ t, execInkRefill s = .next t ∧ Moves i none s none t := by
  refine ⟨_, rfl, completion_moves fun c x he _ => ?_⟩
  dsimp only
  split
  · exact complete_moves he _ _
  · rename_i h
    exact (modHead_moves _ ⟨rfl, rfl, rfl, fun _ => Nat.not_lt.1 h⟩).complete he rfl _ _

theorem dieDate_moves (s : State) : ∃ t, execDieDate s = .next t ∧ Moves i none s none t := by
  refine ⟨_, rfl, completion_moves fun c t he _ => ?_⟩
  split
  · exact complete_moves he _ _
  · exact aside_complete_moves he _ _ (by constructor <;> rfl)

theorem Pocket.alike_sweepState (k : Pocket) : k.Alike { k with state := k.sweepState } := by
  refine ⟨rfl, Nat.le_refl _, fun h => .inr ?_⟩
  have h : k.sweepState = .sweepWait := h
  unfold Pocket.sweepState at h
  split at h
  · cases h
  · omega

theorem sweepStart_moves (s : State) : ∃ t, execSweepStart s = .next t ∧ Moves i none s none t := by
  refine ⟨_, rfl, completion_moves fun c x he _ => ?_⟩
  dsimp only
  split
  · exact (modPocket_moves (fun k => { k with state := k.sweepState }) (Pocket.alike_sweepState _)).complete he rfl _ _
  · exact (modPocket_moves (fun k => { k with state := k.sweepState }) (Pocket.alike_sweepState _)).complete he rfl _ _
  · exact complete_moves he _ _
  · exact complete_moves he _ _

theorem sweepDone_moves (s : State) : ∃ t, execSweepDone s = .next t ∧ Moves i none s none t := by
  refine ⟨_, rfl, completion_moves fun c x he _ => ?_⟩
  dsimp only
  split
  · refine Moves.complete ((notice_moves s _ _).trans (modPocket_moves Pocket.emptied ?_)) he (by simp [State.modPocket]) _ _
    exact ⟨rfl, Nat.zero_le _, fun h => by cases h⟩
  · exact complete_moves he _ _
  · exact complete_moves he _ _
  · exact complete_moves he _ _

theorem countSnapshot_moves (s : State) : ∃ t, execCountSnapshot s = .next t ∧ Moves i none s none t := by
  refine ⟨_, rfl, completion_moves fun c x he _ => ?_⟩
  split
  · cases hg : x.1 with
    | lane l => exact (LaneMove.clearCounts s l).moves.complete he rfl _ _
    | block n => exact aside_complete_moves he _ _ (by constructor <;> rfl)
  · exact complete_moves he _ _

/-! ### The Table Store -/

theorem refuseWrite_moves (he : s.interp.executing = some c) (x : StickyFlag) (rc : ResponseCode) :
    Moves i a s a (s.refuseWrite c x rc) := (setFlag_moves s x).complete he rfl _ _

theorem discardOpen_moves (s : State) : Moves i a s a s.discardOpen := by
  refine (StoreMove.phase _ ?_ ?_ ?_ ?_ ?_).moves <;> cases s.store.phase <;> first | rfl | nofun

/-- The open write's buffer discarded, and the refusal (R165, R167). -/
theorem discardOpen_refuse_moves (he : s.interp.executing = some c) (x : StickyFlag) (rc : ResponseCode) :
    Moves i a s a (s.discardOpen.refuseWrite c x rc) :=
  (discardOpen_moves s).trans (refuseWrite_moves (s := s.discardOpen) he x rc)

/-- A table opened for a write keeps the writes that wait (R164, R170). -/
theorem opened_moves {t : Table} {count : Nat} (ls : LaneSet) (hb : ¬s.store.phase.barred t = true) (hc : count ≤ 32)
    (hp : s.store.phase = .ready ∨ ∃ p, s.store.phase = .suspended p) :
    Moves i a s a (s.setPhase (s.store.phase.opened { table := t, laneSet := ls, count := count, received := [] })) := by
  have bound : ∀ w : Staged, some { table := t, laneSet := ls, count := count, received := [] : Staged } = some w →
      w.received.length ≤ w.count ∧ w.count ≤ 32 := by
    rintro w ⟨⟩
    exact ⟨Nat.zero_le _, hc⟩
  rcases hp with hp | ⟨p, hp⟩
  · refine (StoreMove.phase _ ?_ ?_ ?_ ?_ ?_).moves <;> rw [hp]
    · rfl
    · rfl
    · rfl
    · nofun
    · exact fun _ => bound
  · rw [hp] at hb
    refine (StoreMove.phase _ ?_ ?_ ?_ ?_ ?_).moves <;> rw [hp]
    · rfl
    · rfl
    · rfl
    · intro _ h
      have ht : t = .signature := by simpa [Phase.opened, Phase.nestedTable] using h
      exact hb (by simp [Phase.barred, ht])
    · exact fun _ => bound

theorem openArgs_count {bs : List Byte} {x : Table × Nat × LaneSet} (h : openArgs bs = .valid x) : x.2.1 ≤ 32 := by
  unfold openArgs at h
  split at h
  · unfold inRange at h
    split at h
    · rename_i y hy
      cases h
      simp only [Option.bind_eq_bind, Option.bind_eq_some_iff, Option.pure_def, Option.some.injEq] at hy
      obtain ⟨t, -, n, hn, ls, -, rfl⟩ := hy
      have := within_eq_some.1 hn
      dsimp only
      omega
    · cases h
  · cases h

theorem tableOpen_moves (s : State) : ∃ t, execTableOpen s = .next t ∧ Moves i none s none t := by
  refine ⟨_, rfl, completion_moves fun c x he hx => ?_⟩
  have opens (hp : s.store.phase = .ready ∨ ∃ p, s.store.phase = .suspended p) :
      Moves i none s none (s.tryOpen c x.1 x.2.1 x.2.2) := by
    unfold State.tryOpen
    split
    · exact complete_moves he _ _
    · split
      · exact complete_moves he _ _
      · rename_i hb
        split
        · exact refuseWrite_moves he _ _
        · split
          · exact refuseWrite_moves he _ _
          · exact (opened_moves _ hb (openArgs_count hx) hp).complete he rfl _ _
  split
  · exact opens (.inl ‹_›)
  · exact opens (.inr ⟨_, ‹_›⟩)
  · exact complete_moves he _ _
  · exact discardOpen_refuse_moves he _ _
  · exact discardOpen_refuse_moves he _ _
  · exact discardOpen_refuse_moves he _ _

/-- A fill within the count of the open write keeps its bound (R165). -/
theorem withOpen_moves {w : Staged} {es : List (Table × List Byte)} (hw : s.store.phase.open? = some w)
    (hn : ¬w.count < w.received.length + es.length) : Moves i a s a (s.setPhase (s.store.phase.withOpen (w.take es))) := by
  have bound : s.store.phase.Bounded → ∀ v : Staged, some (w.take es) = some v → v.received.length ≤ v.count ∧ v.count ≤ 32 := by
    rintro h v ⟨⟩
    have := (h w hw).2
    simp only [Staged.take, List.length_append, List.length_map]
    omega
  cases hp : s.store.phase <;> rw [hp] at hw bound <;> cases hw
  · refine (StoreMove.phase _ ?_ ?_ ?_ ?_ ?_).moves <;> rw [hp]
    · rfl
    · rfl
    · rfl
    · nofun
    · exact bound
  · refine (StoreMove.phase _ ?_ ?_ ?_ ?_ ?_).moves <;> rw [hp]
    · rfl
    · rfl
    · rfl
    · exact id
    · exact bound

theorem tableFill_moves (s : State) : ∃ t, execTableFill s = .next t ∧ Moves i none s none t := by
  refine ⟨_, rfl, completion_moves fun c es he _ => ?_⟩
  split
  · rename_i w hw
    unfold State.fill
    split
    · exact complete_moves he _ _
    · split
      · exact discardOpen_refuse_moves he _ _
      · exact (withOpen_moves hw ‹_›).complete he rfl _ _
  · exact refuseWrite_moves he _ _

theorem tableCommit_moves (s : State) : ∃ t, execTableCommit s = .next t ∧ Moves i none s none t := by
  refine ⟨_, rfl, completion_moves fun c _ he _ => ?_⟩
  split
  · exact refuseWrite_moves he _ _
  · rename_i w hw
    split
    · exact discardOpen_refuse_moves he _ _
    · exact (StoreMove.commit he hw ‹_›).moves

theorem tableAbandon_moves (s : State) : ∃ t, execTableAbandon s = .next t ∧ Moves i none s none t := by
  refine ⟨_, rfl, completion_moves fun c _ he _ => ?_⟩
  split
  · exact (discardOpen_moves s).complete he rfl _ _
  · exact complete_moves he _ _

theorem tableStatusClear_moves (s : State) : ∃ t, execTableStatusClear s = .next t ∧ Moves i none s none t :=
  ⟨_, rfl, completion_moves fun _ _ he _ => aside_complete_moves he _ _ (by constructor <;> rfl)⟩

/-- The suspend mark set or taken, or a suspended write gone on with (R169). -/
theorem setPhase_programming_moves {p : Programming} (mark : Bool)
    (h : (∃ m, s.store.phase = .programming p m) ∨ s.store.phase = .suspended p) :
    Moves i a s a (s.setPhase (.programming p mark)) := by
  rcases h with ⟨m, hp⟩ | hp
  · refine (StoreMove.phase _ ?_ ?_ ?_ ?_ ?_).moves <;> rw [hp] <;> first | rfl | nofun
  · refine (StoreMove.phase _ ?_ ?_ ?_ ?_ ?_).moves <;> rw [hp] <;> first | rfl | nofun

theorem tableSuspend_moves (s : State) : ∃ t, execTableSuspend s = .next t ∧ Moves i none s none t := by
  refine ⟨_, rfl, completion_moves fun c _ he _ => ?_⟩
  split
  · exact (setPhase_programming_moves true (.inl ⟨_, ‹_›⟩)).complete he rfl _ _
  all_goals exact complete_moves he _ _

theorem tableResume_moves (s : State) : ∃ t, execTableResume s = .next t ∧ Moves i none s none t := by
  refine ⟨_, rfl, completion_moves fun c _ he _ => ?_⟩
  split
  · exact (setPhase_programming_moves false (.inr ‹_›)).complete he rfl _ _
  all_goals exact complete_moves he _ _

theorem lock_keeps (k : Store) (t : Table) : (k.lock t).phase = k.phase ∧ (k.lock t).tables = k.tables := by
  cases t <;> exact ⟨rfl, rfl⟩

theorem tableLock_moves (s : State) : ∃ t, execTableLock s = .next t ∧ Moves i none s none t := by
  refine ⟨_, rfl, completion_moves fun c t he _ => ?_⟩
  split
  · exact complete_moves he _ _
  · refine aside_complete_moves he _ _ ?_
    constructor <;> first | rfl | exact (lock_keeps _ t).1 | exact (lock_keeps _ t).2

theorem tableRead_moves (s : State) : ∃ t, execTableRead s = .next t ∧ Moves i none s none t :=
  ⟨_, rfl, completion_moves fun _ _ he _ => complete_moves he _ _⟩

end Completions

/-! ### Every step -/

/-- Every step answers a next state, by moves. -/
theorem exec_moves (i : Instr) (s : State) : ∃ t, exec i s = .next t ∧ Moves i none s none t := by
  cases i with
  | powerOn => exact ⟨_, rfl, (Move.power s rfl).single⟩
  | resetInput => exact resetInput_moves s
  | resetInactive => exact ⟨_, rfl, State.Aside.moves (by constructor <;> rfl)⟩
  | unitReceived u => exact unitReceived_moves u s
  | sampleFrame u => exact sampleFrame_moves u s
  | commandFrame u => exact commandFrame_moves u s
  | actStatusFrame u => exact actStatusFrame_moves (fun _ => by trivial) u s
  | transmissionEnd => exact transmissionEnd_moves s
  | beltStep l f => exact beltStep_moves l f s
  | leadingEdge l => exact leadingEdge_moves l s
  | trailingEdge l => exact trailingEdge_moves l s
  | holdEnd l => exact holdEnd_moves l s
  | coveredLimit l => exact coveredLimit_moves l s
  | overlengthPoint l t => exact overlengthPoint_moves l t s
  | sampleWaitExpiry l t => exact sampleWaitExpiry_moves l t s
  | decisionPoint l t => exact decisionPoint_moves l t s
  | strikeStart l h t => exact strikeStart_moves l h t s
  | strikeEnd l h t => exact strikeEnd_moves l h t s
  | pocketPoint l t => exact pocketPoint_moves l t s
  | retirement l t => exact retirement_moves l t s
  | windowEnd l => exact windowEnd_moves l s
  | commandTake => exact commandTake_moves s
  | engineTake => exact engineTake_moves s
  | scoringComplete => exact scoringComplete_moves s
  | entryApplication => exact entryApplication_moves s
  | unknownCommand => exact unknownCommand_moves s
  | linkAddress => exact linkAddress_moves s
  | linkCountersClear => exact linkCountersClear_moves s
  | statusRead => exact statusRead_moves s
  | laneTrackRead => exact laneTrackRead_moves s
  | noticeMask => exact noticeMask_moves s
  | pieceReport => exact pieceReport_moves s
  | reportFlush => exact reportFlush_moves s
  | clearIndications => exact clearIndications_moves s
  | lineReset => exact execLineReset_moves s
  | laneStart => exact laneStart_moves s
  | laneStop => exact laneStop_moves s
  | jamClear => exact jamClear_moves s
  | pieceAudit => exact pieceAudit_moves s
  | auditRead => exact auditRead_moves s
  | auditRelease => exact auditRelease_moves s
  | inkRefill => exact inkRefill_moves s
  | dieDate => exact dieDate_moves s
  | sweepStart => exact sweepStart_moves s
  | sweepDone => exact sweepDone_moves s
  | countSnapshot => exact countSnapshot_moves s
  | tableOpen => exact tableOpen_moves s
  | tableFill => exact tableFill_moves s
  | tableCommit => exact tableCommit_moves s
  | tableAbandon => exact tableAbandon_moves s
  | tableStatusClear => exact tableStatusClear_moves s
  | tableSuspend => exact tableSuspend_moves s
  | tableResume => exact tableResume_moves s
  | tableLock => exact tableLock_moves s
  | tableRead => exact tableRead_moves s

end Sys2Proof.Machine

/-! What each kind of move leaves alone, and how an invariant of the moves is one of the steps. -/

namespace Sys2Proof.Machine

/-- A step is a chain of moves, or the idling of an empty queue. -/
theorem step_moves {s t : State} (h : step s = .next t) :
    t = s ∨ ∃ i rest, s.pending = i :: rest ∧ exec i { s with pending := rest } = .next t
      ∧ Moves i none { s with pending := rest } none t := by
  unfold step at h
  split at h
  · exact .inl (Host.Outcome.next.inj h).symm
  · rename_i i rest hp
    obtain ⟨u, hu, hm⟩ := exec_moves i { s with pending := rest }
    rw [hu] at h
    cases h
    exact .inr ⟨i, rest, hp, hu, hm⟩

/-- What every move keeps, every step keeps. -/
theorem step_keeps {P : State → Prop} (hp : ∀ s rest, P s → P { s with pending := rest })
    (hm : ∀ i a s b t, Move i a s b t → P s → P t) {s t : State} (h : step s = .next t) (hs : P s) : P t := by
  rcases step_moves h with rfl | ⟨i, rest, -, -, hmv⟩
  · exact hs
  · exact hmv.keeps (P := fun _ => P) (fun _ _ _ _ => hm i _ _ _ _) (hp s rest hs)

/-- A move of the outbound side leaves lanes, scans, jobs and the Table Store. -/
structure State.Inner (s t : State) : Prop where
  lanes : t.lanes = s.lanes
  waitList : t.scan.waitList = s.scan.waitList
  scorer : t.scorer = s.scorer
  phase : t.store.phase = s.store.phase
  tables : t.store.tables = s.store.tables
  pending : t.pending = s.pending

theorem State.Inner.refl (s : State) : s.Inner s := ⟨rfl, rfl, rfl, rfl, rfl, rfl⟩

theorem closeBatch_inner (s : State) : s.Inner s.closeBatch := by constructor <;> simp

theorem Outer.inner {s t : State} (h : Outer s t) : s.Inner t := by
  cases h with
  | aside h => exact ⟨h.lanes, h.waitList, h.scorer, h.phase, h.tables, h.pending⟩
  | joinAct m h => constructor <;> simp
  | emptyAct l => constructor <;> simp
  | offer u =>
    unfold State.offer
    split
    · constructor <;> simp
    · constructor <;> rfl
  | postNotice d m => constructor <;> simp
  | closeBatch => exact closeBatch_inner s
  | appendReport r => constructor <;> simp
  | sent => constructor <;> simp
  | complete rc d h => constructor <;> simp
  | take h hq => constructor <;> rfl
  | accept c h => constructor <;> rfl
  | setMask m h => constructor <;> rfl
  | @setPieceReport level on h hl =>
    have h1 : s.Inner (s.setPieceReport on level) := by constructor <;> rfl
    unfold State.closeWhenFull
    split
    · have h2 := closeBatch_inner (s.setPieceReport on level)
      exact ⟨h2.lanes.trans h1.lanes, h2.waitList.trans h1.waitList, h2.scorer.trans h1.scorer, h2.phase.trans h1.phase,
        h2.tables.trans h1.tables, h2.pending.trans h1.pending⟩
    · exact h1
  | answerReset c h => unfold State.answerReset; constructor <;> simp

theorem Outer.lane {s t : State} (h : Outer s t) (l : Lane) : t.lane l = s.lane l := by
  unfold State.lane
  rw [h.inner.lanes]

/-- The tables after an entry has been entered, and nothing else changed (R168). -/
theorem enterEntry_eq (s : State) (e : Entry) :
    s.enterEntry e = { s with store := { s.store with tables := (s.enterEntry e).store.tables } } := by
  cases e <;> rfl

/-- A programming write that goes on is one step further, and otherwise ends with its response (R168). -/
theorem pastEntry_cases (s : State) {e : Entry} (h : s.store.phase.next? = some e) :
    (∃ p mark rest, s.store.phase = .programming p mark ∧ p.todo = e :: rest ∧ rest ≠ []
        ∧ s.pastEntry = s.setPhase (if mark then .suspended (p.advance rest) else .programming (p.advance rest) false))
      ∨ (∃ p mark, s.store.phase = .programming p mark ∧ p.todo = [e]
        ∧ s.pastEntry = (s.setPhase .ready).respond p.commit .done [])
      ∨ (∃ p q rest, s.store.phase = .nestedProgramming p q ∧ q.todo = e :: rest ∧ rest ≠ []
        ∧ s.pastEntry = s.setPhase (.nestedProgramming p (q.advance rest)))
      ∨ ∃ p q, s.store.phase = .nestedProgramming p q ∧ q.todo = [e]
        ∧ s.pastEntry = (s.setPhase (.suspended p)).respond q.commit .done [] := by
  unfold State.pastEntry
  cases hp : s.store.phase <;> rw [hp] at h <;> try cases h
  · rename_i p mark
    cases ht : p.todo with
    | nil => simp [Phase.next?, ht] at h
    | cons e' rest =>
      have he : e' = e := by simpa [Phase.next?, ht] using h
      subst he
      cases rest with
      | nil => exact .inr (.inl ⟨p, mark, rfl, ht, by simp only [ht]; rfl⟩)
      | cons e'' rest => exact .inl ⟨p, mark, _, rfl, ht, nofun, by simp only [ht]; cases mark <;> rfl⟩
  · rename_i p q
    cases ht : q.todo with
    | nil => simp [Phase.next?, ht] at h
    | cons e' rest =>
      have he : e' = e := by simpa [Phase.next?, ht] using h
      subst he
      cases rest with
      | nil => exact .inr (.inr (.inr ⟨p, q, rfl, ht, by simp only [ht]; rfl⟩))
      | cons e'' rest => exact .inr (.inr (.inl ⟨p, q, _, rfl, ht, nofun, by simp only [ht]; rfl⟩))

/-- A move of the Table Store leaves lanes, scans, jobs and the waiting steps. -/
theorem StoreMove.keeps {s t : State} (h : StoreMove s t) :
    t.lanes = s.lanes ∧ t.scan = s.scan ∧ t.scorer = s.scorer ∧ t.pending = s.pending := by
  cases h with
  | enter h => rw [enterEntry_eq]; exact ⟨rfl, rfl, rfl, rfl⟩
  | past h he =>
    rcases pastEntry_cases s h with ⟨p, mark, rest, -, -, -, e⟩ | ⟨p, mark, -, -, e⟩ | ⟨p, q, rest, -, -, -, e⟩ | ⟨p, q, -, -, e⟩ <;>
      rw [e]
    · exact ⟨rfl, rfl, rfl, rfl⟩
    · simp [State.setPhase]
    · exact ⟨rfl, rfl, rfl, rfl⟩
    · simp [State.setPhase]
  | phase p => exact ⟨rfl, rfl, rfl, rfl⟩
  | commit h hw he => exact ⟨rfl, rfl, rfl, rfl⟩

theorem StoreMove.lane {s t : State} (h : StoreMove s t) (l : Lane) : t.lane l = s.lane l := by
  unfold State.lane
  rw [h.keeps.1]

theorem modLane_within (s : State) (l : Lane) (f : LaneS → LaneS) : s.Within (s.modLane l f) := rfl

/-- A decision written changes the record's lane only (R108, R109). -/
theorem settle_within (s : State) (l : Lane) (p : Piece) (d : Decision) : s.Within (s.settle l p d) := by
  unfold State.settle
  split
  · unfold State.countLate
    split <;> rfl
  · dsimp only
    unfold State.countUnstruck
    split <;> split <;> rfl

theorem atDecision_within (s : State) (l : Lane) (tag : Tag) : s.Within (s.atDecision l tag) :=
  (modLane_within s l _).trans (settleScan_kept _ l tag).within

/-- A move of a lane changes lanes, scans, jobs and category records only. -/
theorem LaneMove.within {i : Instr} {a b : Option Lane} {s t : State} (h : LaneMove i a s b t) : s.Within t := by
  cases h with
  | alike | rate | file | capture | measure | leaveJam | drain | stop | start | resume | fire | suppress | endStrike
  | passPocket | choose | clearCounts | judge => rfl
  | @reopen _ _ l p h hp hd he => exact (reopen_kept s l (by rw [he]; nofun)).within
  | abandon => exact (abandonScan_kept s _ _).within
  | @ask _ _ l p tag hp hs hn => exact (askSlot_kept s l tag).within
  | askReady => exact (askReady_kept s _).within
  | @jam _ _ l hi h => exact (modLane_within s l _).trans (withdrawLane_kept _ l).within
  | retire => exact handOff_within s _ _ _
  | glitch hi hp he hd => exact (modLane_within s _ _).trans (handOff_within _ _ _ _)
  | clear hi h => exact handOffAll_within s _ _
  | @decide _ _ l tag p q hi hp hd hq => exact (atDecision_within s l tag).trans (settle_within _ l q _)
  | @finish _ _ j h => exact (finish_kept s j).within
  | takeJob => exact (takeJob_kept s).within

theorem latchChange_keeps (s : State) (x : LaneState) :
    (s.latchChange x).link = s.link ∧ (s.latchChange x).interp = s.interp ∧ (s.latchChange x).lanes = s.lanes
      ∧ (s.latchChange x).scan = s.scan ∧ (s.latchChange x).scorer = s.scorer ∧ (s.latchChange x).store = s.store
      ∧ (s.latchChange x).pending = s.pending ∧ (s.latchChange x).reports.queued = s.reports.queued
      ∧ (s.latchChange x).reports.reserved = s.reports.reserved ∧ (s.latchChange x).reports.batch = s.reports.batch
      ∧ (s.latchChange x).reports.batchLevel = s.reports.batchLevel ∧ (s.latchChange x).reports.mask = s.reports.mask := by
  unfold State.latchChange
  split <;> simp

/-- A lane at a line reset, its records handed off (R61, R128). -/
def LaneS.resetOwn (x : LaneS) : LaneS :=
  ({ x with heads := ⟨x.heads.l.emptied, x.heads.t.emptied⟩ }.handOffs .lineReset x.list).lineReset

theorem resetLane_lane (s : State) (l : Lane) : (s.resetLane l).lane l = (s.lane l).resetOwn := by
  unfold State.resetLane State.lane
  rw [(latchChange_keeps _ _).2.2.1]
  show State.lane _ l = _
  rw [State.modLane_lane, retireAll_lineReset, handOffAll_lane_eq]
  unfold State.emptyBookings
  rw [State.modLane_lane]
  rfl

theorem resetLane_lane_ne (s : State) {l m : Lane} (h : m ≠ l) : (s.resetLane l).lane m = s.lane m := by
  unfold State.resetLane State.lane
  rw [(latchChange_keeps _ _).2.2.1]
  show State.lane _ m = _
  rw [State.modLane_lane_ne _ _ h, retireAll_lineReset, handOffAll_lane_ne _ _ h]
  exact State.modLane_lane_ne _ _ h

/-- A hand-off leaves everything but its lane and the category records. -/
theorem handOffAll_eq (s : State) (l : Lane) (way : Way) :
    s.handOffAll l way
      = { s with lanes := (s.handOffAll l way).lanes, categories := (s.handOffAll l way).categories } := by
  have all (ps : List Piece) (u : State) : ∃ ls cs,
      ps.foldl (fun s p => s.handOff l way p) u = { u with lanes := ls, categories := cs } := by
    induction ps generalizing u with
    | nil => exact ⟨_, _, rfl⟩
    | cons p ps ih =>
      obtain ⟨ls, cs, e⟩ := ih (u.handOff l way p)
      exact ⟨ls, cs, e.trans (by rw [handOff_eq_modLane]; rfl)⟩
  obtain ⟨ls, cs, e⟩ := all (s.lane l).list s
  unfold State.handOffAll
  rw [e]

/-- A lane's reset leaves everything outside the lanes but the latches and the category records. -/
theorem resetLane_keeps (s : State) (l : Lane) :
    (s.resetLane l).link = s.link ∧ (s.resetLane l).interp = s.interp ∧ (s.resetLane l).scan = s.scan
      ∧ (s.resetLane l).scorer = s.scorer ∧ (s.resetLane l).store = s.store ∧ (s.resetLane l).pending = s.pending
      ∧ (s.resetLane l).reports.queued = s.reports.queued ∧ (s.resetLane l).reports.reserved = s.reports.reserved
      ∧ (s.resetLane l).reports.batch = s.reports.batch ∧ (s.resetLane l).reports.batchLevel = s.reports.batchLevel
      ∧ (s.resetLane l).reports.mask = s.reports.mask := by
  unfold State.resetLane
  generalize hu : (((s.emptyBookings l).retireAll l .lineReset).modLane l LaneS.lineReset) = u
  obtain ⟨h1, h2, -, h4, h5, h6, h7, h8, h9, h10, h11, h12⟩ := latchChange_keeps u (s.lane l).state
  rw [retireAll_lineReset, handOffAll_eq] at hu
  rw [h1, h2, h4, h5, h6, h7, h8, h9, h10, h11, h12, ← hu]
  exact ⟨rfl, rfl, rfl, rfl, rfl, rfl, rfl, rfl, rfl, rfl, rfl⟩

end Sys2Proof.Machine

/-! What a reset leaves, and O2: every step goes on and leaves the waiting steps. -/

namespace Sys2Proof.Machine

/-- What the Table Store's reset leaves: a write that is cut off sets ABORTED and its latch (R173). -/
theorem resetStore_keeps (s : State) :
    s.resetStore.link = s.link ∧ s.resetStore.interp = s.interp ∧ s.resetStore.lanes = s.lanes
      ∧ s.resetStore.scan = s.scan ∧ s.resetStore.scorer = s.scorer ∧ s.resetStore.pending = s.pending
      ∧ s.resetStore.reports.queued = s.reports.queued ∧ s.resetStore.reports.reserved = s.reports.reserved
      ∧ s.resetStore.reports.batch = s.reports.batch ∧ s.resetStore.reports.batchLevel = s.reports.batchLevel
      ∧ s.resetStore.reports.mask = s.reports.mask ∧ s.resetStore.store.tables = s.store.tables
      ∧ s.resetStore.store.phase = .ready := by
  unfold State.resetStore
  split
  · exact ⟨rfl, rfl, rfl, rfl, rfl, rfl, rfl, rfl, rfl, rfl, rfl, rfl, ‹_›⟩
  all_goals exact ⟨rfl, rfl, rfl, rfl, rfl, rfl, rfl, rfl, rfl, rfl, rfl, rfl, rfl⟩

/-- The blocks outside the lanes after a line reset (R34, R35, R173). -/
structure State.BlocksReset (s t : State) : Prop where
  link : t.link = s.link
  interp : t.interp = { queue := [], executing := none }
  queued : t.reports.queued = []
  reserved : t.reports.reserved = 0
  batch : t.reports.batch = []
  batchLevel : t.reports.batchLevel = s.reports.batchLevel
  mask : t.reports.mask = s.reports.mask
  waitList : t.scan.waitList = []
  scorer : t.scorer = { s.scorer with queues := ⟨[], []⟩ }
  tables : t.store.tables = s.store.tables
  phase : t.store.phase = .ready
  pending : t.pending = s.pending

theorem resetBlocks_reset (s : State) : s.BlocksReset s.resetBlocks := by
  obtain ⟨c1, c2, -, c4, c5, c6, c7, c8, c9, c10, c11, ht, hp⟩ := resetStore_keeps s.resetReports
  unfold State.resetBlocks
  obtain ⟨a1, a2, a3, a4, a5, a6, a7, a8, a9, a10, a11⟩ := resetLane_keeps s.resetReports.resetStore.resetScan .a
  obtain ⟨b1, b2, b3, b4, b5, b6, b7, b8, b9, b10, b11⟩ :=
    resetLane_keeps (s.resetReports.resetStore.resetScan.resetLane .a) .b
  constructor
  · exact b1.trans (a1.trans c1)
  · exact b2.trans (a2.trans c2)
  · exact b7.trans (a7.trans c7)
  · exact b8.trans (a8.trans c8)
  · exact b9.trans (a9.trans c9)
  · exact b10.trans (a10.trans c10)
  · exact b11.trans (a11.trans c11)
  · rw [b3, a3]; rfl
  · rw [b4, a4]
    show ({ s.resetReports.resetStore.scorer with queues := _ } : Scorer) = _
    rw [c5]
    rfl
  · rw [b5, a5]; exact ht
  · rw [b5, a5]; exact hp
  · exact b6.trans (a6.trans c6)

theorem resetBlocks_lane (s : State) (l : Lane) : s.resetBlocks.lane l = (s.lane l).resetOwn := by
  have own (m : Lane) : s.resetReports.resetStore.resetScan.lane m = s.lane m := by
    obtain ⟨-, -, h, -⟩ := resetStore_keeps s.resetReports
    show s.resetReports.resetStore.lanes.get m = _
    rw [h]
    rfl
  unfold State.resetBlocks
  cases l with
  | a => rw [resetLane_lane_ne _ (by decide), resetLane_lane, own]
  | b => rw [resetLane_lane, resetLane_lane_ne _ (by decide), own]

/-- What a line reset leaves of a lane (R61, R76, R115, R128). -/
theorem LaneS.resetOwn_values (x : LaneS) :
    x.resetOwn.state = .stopped ∧ x.resetOwn.list = [] ∧ x.resetOwn.eye = .idle ∧ x.resetOwn.window = none
      ∧ x.resetOwn.forwardMark = none ∧ x.resetOwn.feedRate = .hold ∧ x.resetOwn.rings = .all [] := by
  refine ⟨rfl, ?_, rfl, rfl, rfl, rfl, rfl⟩
  exact LaneS.handOffs_list _ _ _ fun q hq => ⟨q, hq, rfl⟩

/-- Every move leaves the waiting steps. -/
theorem Move.pending {i : Instr} {a b : Option Lane} {s t : State} (h : Move i a s b t) : t.pending = s.pending := by
  cases h with
  | outer h => exact h.inner.pending
  | store h => exact h.keeps.2.2.2
  | lane h => rw [h.within]
  | reset hi => exact (resetBlocks_reset s).pending
  | power hi => rfl

/-- Settles O2: a step is a chain of moves, and no move touches the waiting steps. -/
theorem everyStepGoesOnAndKeepsQueue : Obligations.EveryStepGoesOnAndKeepsQueue := by
  intro i s
  obtain ⟨t, ht, hm⟩ := exec_moves i s
  exact ⟨t, ht, hm.keeps (P := fun _ u => u.pending = s.pending) (fun _ _ _ _ m h => m.pending.trans h) rfl⟩

end Sys2Proof.Machine

/-! How a move changes one lane: the kept lanes, and the change of the one that is not kept. -/

namespace Sys2Proof.Machine

/-! ### A decision written to its lane -/

/-- A lane with a decision written to the record of a tag; its heads aside (R108, R109). -/
structure LaneS.Settled (tag : Tag) (x y : LaneS) : Prop where
  state : y.state = x.state
  nextTag : y.nextTag = x.nextTag
  monitors : y.monitors = x.monitors
  feedRate : y.feedRate = x.feedRate
  eye : y.eye = x.eye
  window : y.window = none ↔ x.window = none
  forwardMark : y.forwardMark = x.forwardMark
  list : ∃ g, (∀ p : Piece, p.Alike (g p) ∧ (g p).disposition.isSome = true) ∧ y.list = modTagged tag g x.list
  pockets : y.pockets = x.pockets
  captured : y.counters.captured = x.counters.captured
  dispositions : y.counters.dispositions = x.counters.dispositions
  rings : y.rings = x.rings

/-- A strike that a head can take (R118, R119). -/
structure Head.Takes (g : Geometry) (k : Strike) (x : Head) : Prop where
  fresh : k.started = false
  room : x.booking.length < Config.bookingDepth
  free : (k.start - x.freePos).toNat < 8388608
  stop : k.stop = k.start + BitVec.ofNat 24 g.strikeLen
  ink : x.reserved + k.cost ≤ x.units

/-- A lane whose heads book nothing, or one strike of a record (R119). -/
def LaneS.Books (g : Geometry) (tag : Tag) (x y : LaneS) : Prop :=
  y.heads = x.heads
    ∨ ∃ h k, y.heads = x.heads.set h (Head.book g k (x.heads.get h)) ∧ k.tag = tag ∧ (x.heads.get h).Takes g k

theorem modTagged_modTagged {tag : Tag} {f g : Piece → Piece} (hf : ∀ p : Piece, (f p).tag = p.tag) (ps : List Piece) :
    modTagged tag g (modTagged tag f ps) = modTagged tag (fun p => g (f p)) ps := by
  unfold modTagged
  rw [List.map_map]
  refine List.map_congr_left fun p _ => ?_
  by_cases h : p.tag = tag <;> simp [h, hf]

/-- A decided record keeps what the invariants read, and has a disposition. -/
theorem Piece.rejected_alike (g : GateSetting) (d : Disposition) (p : Piece) :
    p.Alike (p.rejected g d) ∧ (p.rejected g d).disposition.isSome = true :=
  ⟨⟨⟨rfl, rfl, rfl, rfl, rfl, fun _ => rfl⟩, rfl, rfl⟩, rfl⟩

theorem Piece.faced_alike (h : Hit) (route : RouteClass) (cancel : CancelState) (d : Disposition) (p : Piece) :
    p.Alike (p.faced h route cancel d) ∧ (p.faced h route cancel d).disposition.isSome = true :=
  ⟨⟨⟨rfl, rfl, rfl, rfl, rfl, fun _ => rfl⟩, rfl, rfl⟩, rfl⟩

/-- Settled by a change of the record, the gate, the window's counts and the unread counters alone. -/
theorem LaneS.Settled.of {tag : Tag} {x : LaneS} {g : Piece → Piece}
    (hg : ∀ p : Piece, p.Alike (g p) ∧ (g p).disposition.isSome = true) (gate : Gate) (heads : PerHead Head)
    {w : Option Window} (hw : w = none ↔ x.window = none) {c : LaneCounters} (hc : c.captured = x.counters.captured)
    (hd : c.dispositions = x.counters.dispositions) :
    x.Settled tag { x with list := modTagged tag g x.list, gate := gate, heads := heads, window := w, counters := c } where
  state := rfl
  nextTag := rfl
  monitors := rfl
  feedRate := rfl
  eye := rfl
  window := hw
  forwardMark := rfl
  list := ⟨g, hg, rfl⟩
  pockets := rfl
  captured := hc
  dispositions := hd
  rings := rfl

/-- A reject changes its record, and the window's LATE count (R109). -/
theorem settle_reject (s : State) (l : Lane) (p : Piece) (d : Disposition) :
    ∃ w, (w = none ↔ (s.lane l).window = none)
      ∧ (s.settle l p (.reject d)).lane l
        = { s.lane l with list := modTagged p.tag (Piece.rejected (s.lane l).gate.setting d) (s.lane l).list, window := w } := by
  unfold State.settle State.countLate
  dsimp only
  split
  · refine ⟨(s.lane l).window.map fun w => { w with late := satInc Config.max16 w.late }, by simp, ?_⟩
    simp [State.countWindow, State.modPiece]
  · exact ⟨_, .rfl, by simp [State.modPiece]⟩

/-- The counter of a record that cannot be struck is one that the invariants do not read (R108). -/
theorem countUnstruck_lane (s : State) (l : Lane) (cancel : CancelState) :
    ∃ c, c.captured = (s.lane l).counters.captured ∧ c.dispositions = (s.lane l).counters.dispositions
      ∧ (s.countUnstruck l cancel).lane l = { s.lane l with counters := c } := by
  unfold State.countUnstruck
  split
  · refine ⟨{ (s.lane l).counters with missed := satInc Config.max32 (s.lane l).counters.missed }, rfl, rfl, ?_⟩
    simp [State.count, LaneS.count]
  · refine ⟨{ (s.lane l).counters with suppressed := satInc Config.max32 (s.lane l).counters.suppressed }, rfl, rfl, ?_⟩
    simp [State.count, LaneS.count]
  · exact ⟨(s.lane l).counters, rfl, rfl, rfl⟩

/-- The heads after a commit: the wanted one has taken its strike where one is booked (R119). -/
def State.headsFaced (s : State) (l : Lane) (p : Piece) (h : Hit) (book : Bool) : PerHead Head :=
  if book then
    (s.lane l).heads.set (wantedHead h.corner)
      (Head.book (s.geometry l)
        (s.newStrike l (wantedHead h.corner) p.tag (strikeStartPos (s.geometry l) (wantedHead h.corner) p.lead h.stampStart))
        (s.head l (wantedHead h.corner)))
  else (s.lane l).heads

/-- A commit changes its record, the gate's setting, a head it books, and a counter (R108). -/
theorem settle_face (s : State) (l : Lane) (p : Piece) (h : Hit) (route : RouteClass) (cancel : CancelState)
    (d : Disposition) (book : Bool) :
    ∃ g c, (∀ p : Piece, p.Alike (g p) ∧ (g p).disposition.isSome = true)
      ∧ c.captured = (s.lane l).counters.captured ∧ c.dispositions = (s.lane l).counters.dispositions
      ∧ (s.settle l p (.face h route cancel d book)).lane l
        = { s.lane l with
            list := modTagged p.tag g (s.lane l).list
            gate := { (s.lane l).gate with setting := wantedSetting h.corner }, heads := s.headsFaced l p h book
            window := (s.lane l).window, counters := c } := by
  cases book with
  | false =>
    obtain ⟨c, hc, hd, e⟩ := countUnstruck_lane
      ((s.modLane l fun x => { x with gate := { x.gate with setting := wantedSetting h.corner } }).modPiece l p.tag
        (Piece.faced h route cancel d)) l cancel
    refine ⟨Piece.faced h route cancel d, c, fun q => q.faced_alike h route cancel d, ?_, ?_, ?_⟩
    · simpa [State.modPiece] using hc
    · simpa [State.modPiece] using hd
    · refine Eq.trans e ?_
      simp [State.modPiece, State.headsFaced]
  | true =>
    obtain ⟨c, hc, hd, e⟩ := countUnstruck_lane
      (((s.modLane l fun x => { x with gate := { x.gate with setting := wantedSetting h.corner } }).book l
        (wantedHead h.corner) p.tag (strikeStartPos (s.geometry l) (wantedHead h.corner) p.lead h.stampStart)).modPiece l p.tag
        (Piece.faced h route cancel d)) l cancel
    refine ⟨fun q => Piece.faced h route cancel d
        { q with
          cancel := .booked
          strikeStart := some (strikeStartPos (s.geometry l) (wantedHead h.corner) p.lead h.stampStart) }, c,
      fun q => ⟨⟨⟨rfl, rfl, rfl, rfl, rfl, fun _ => rfl⟩, rfl, rfl⟩, rfl⟩, ?_, ?_, ?_⟩
    · simpa [State.modPiece, State.book, State.modHead] using hc
    · simpa [State.modPiece, State.book, State.modHead] using hd
    · refine Eq.trans e ?_
      simp [State.modPiece, State.book, State.modHead, State.headsFaced, modTagged_modTagged, State.head]
      rfl

theorem settle_settled (s : State) (l : Lane) (p : Piece) (d : Decision) :
    (s.lane l).Settled p.tag ((s.settle l p d).lane l) := by
  cases d with
  | reject d =>
    obtain ⟨w, hw, e⟩ := settle_reject s l p d
    rw [e]
    exact .of (fun q => q.rejected_alike _ d) _ _ hw rfl rfl
  | face h route cancel d book =>
    obtain ⟨g, c, hg, hc, hd, e⟩ := settle_face s l p h route cancel d book
    rw [e]
    exact .of hg _ _ .rfl hc hd

/-- A bookable strike is one that the wanted head can take (R118). -/
theorem bookingCheck_takes {s : State} {l : Lane} {h : HeadId} {lead : Pos} {n : Nat}
    (hb : s.bookingCheck l h lead n = .bookable) (tag : Tag) :
    (s.head l h).Takes (s.geometry l) (s.newStrike l h tag (strikeStartPos (s.geometry l) h lead n)) := by
  unfold State.bookingCheck at hb
  dsimp only at hb
  repeat (split at hb; · cases hb)
  rename_i h1 h2 h3 h4 h5
  refine ⟨rfl, by omega, ?_, rfl, ?_⟩
  · show (strikeStartPos (s.geometry l) h lead n - _).toNat < _
    simp only [reached, Bool.not_eq_true', Bool.not_eq_false, decide_eq_true_eq] at h5
    exact h5
  · simp only [Bool.or_eq_true, decide_eq_true_eq, not_or] at h3
    exact Nat.le_of_not_lt h3.2

/-- A decision that books has found its strike bookable (R106). -/
theorem decision_books {s : State} {l : Lane} {p : Piece} {h : Hit} {route : RouteClass} {cancel : CancelState}
    {d : Disposition} (hd : s.decision l p = .face h route cancel d true) :
    s.bookingCheck l (wantedHead h.corner) p.lead h.stampStart = .bookable := by
  have pocket {e : Decision} (he : s.pocketCheck l e = .face h route cancel d true) : e = .face h route cancel d true := by
    cases e with
    | reject => cases he
    | face h' r c d' b =>
      unfold State.pocketCheck at he
      dsimp only at he
      split at he
      · exact he
      · cases he
  unfold State.decision at hd
  split at hd
  · cases hd
  · split at hd
    · split at hd <;> try cases hd
      unfold State.decideHit at hd
      dsimp only at hd
      split at hd
      · cases hd
      · have hr := pocket hd
        unfold State.routeCheck at hr
        split at hr
        · cases hr
        · cases hr
        · split at hr
          · cases hr
          · split at hr
            · cases hr; assumption
            · cases hr
            · cases hr
    · cases hd

theorem settle_books (s : State) (l : Lane) (p : Piece) :
    (s.lane l).Books (s.geometry l) p.tag ((s.settle l p (s.decision l p)).lane l) := by
  cases hd : s.decision l p with
  | reject d =>
    obtain ⟨w, -, e⟩ := settle_reject s l p d
    rw [e]
    exact .inl rfl
  | face h route cancel d book =>
    obtain ⟨g, c, -, -, -, e⟩ := settle_face s l p h route cancel d book
    rw [e]
    cases book with
    | false => exact .inl rfl
    | true => exact .inr ⟨_, _, rfl, rfl, bookingCheck_takes (decision_books hd) p.tag⟩

/-! ### The lane that a move changes -/

/-- The change of a lane by a move that does not keep it. -/
inductive LaneChange (i : Instr) (s : State) (l : Lane) : Option Lane → Option Lane → LaneS → Prop
  | rate {a} (h : a = none ∨ a = some l) : LaneChange i s l a none (s.lane l).rated
  | file {a} (b : Band) (q : Pos) (d : Sample) : LaneChange i s l a a ((s.lane l).file b q d)
  | capture (hi : i = .leadingEdge l) (h : (s.lane l).canCapture = true) :
    LaneChange i s l none (some l) (s.lane l).capture
  | jam {a y} (hi : canJam l i) (h : (s.lane l).active = true) (hy : (s.lane l).jammed.Kept y) : LaneChange i s l a a y
  | retire {tag p} (hi : i = .retirement l tag) (hp : s.piece? l tag = some p) (hd : p.decisionTaken = true)
    (hk : p.pocketTaken = true) : LaneChange i s l none (some l) ((s.lane l).handOff .ordinary p)
  | glitch {p st} (hi : i = .trailingEdge l) (hp : s.newest? l = some p) (he : (s.lane l).eye = .covered st)
    (hd : p.decisionTaken = false) :
    LaneChange i s l none (some l) ({ s.lane l with eye := .armed }.handOff .glitch p)
  | clear {a} (hi : i = .jamClear) (h : (s.lane l).state = .jammed) :
    LaneChange i s l a a ((s.lane l).handOffs .jamClear (s.lane l).list)
  | leaveJam {a} (hi : i = .jamClear) (h : (s.lane l).state = .jammed) (hl : (s.lane l).list = []) :
    LaneChange i s l a a { s.lane l with state := .stopped }
  | drain {a} (hi : canDrain l i) (h : (s.lane l).state = .draining) (hl : (s.lane l).list = []) :
    LaneChange i s l a a { (s.lane l).atRest with state := .stopped }
  | stop (hi : i = .laneStop) (h : (s.lane l).state = .running) :
    LaneChange i s l none (some l) { s.lane l with state := .draining }
  | start (hi : i = .laneStart) (h : (s.lane l).state = .stopped) :
    LaneChange i s l none (some l)
      { LaneS.start (s.geometry l) s.store.tables.monitor (s.lane l) with state := .running }
  | resume (hi : i = .laneStart) (h : (s.lane l).state = .draining) :
    LaneChange i s l none (some l) { s.lane l with state := .running }
  | decide {a tag p x y} (hi : i = .decisionPoint l tag) (hp : s.piece? l tag = some p) (hd : p.decisionTaken = false)
    (hx : LaneS.Kept { s.lane l with list := modTagged tag (fun q => { q with decisionTaken := true }) (s.lane l).list } x)
    (hy : x.Settled tag y) (hb : x.Books (s.geometry l) tag y) : LaneChange i s l a a y
  | fire {a h tag k} (hi : i = .strikeStart l h tag) (hk : (s.head l h).strike? tag = some k) (hs : k.started = false) :
    LaneChange i s l a a { s.lane l with heads := (s.lane l).heads.set h (Head.fire k (s.head l h)) }
  | suppress {a h tag k} (hi : i = .strikeStart l h tag) (hk : (s.head l h).strike? tag = some k) (hs : k.started = false) :
    LaneChange i s l a a { s.lane l with heads := (s.lane l).heads.set h (Head.suppress k (s.head l h)) }
  | endStrike {a h tag k} (hi : i = .strikeEnd l h tag) (hk : (s.head l h).strike? tag = some k) (hs : k.started = true) :
    LaneChange i s l a a
      { s.lane l with
        heads := (s.lane l).heads.set h { s.head l h with booking := (s.head l h).booking.filter fun k => !(k.tag == tag) } }
  | passPocket {a tag p} (hp : s.piece? l tag = some p) :
    LaneChange i s l a a { s.lane l with list := modTagged tag Piece.atPocketPoint (s.lane l).list }
  | choose {a tag p k} (hp : s.piece? l tag = some p) (hk : p.pocketTaken = false)
    (hc : s.choose l (s.pocketList l p) = some k) :
    LaneChange i s l a a
      { s.lane l with
        list := modTagged tag (fun q => { q with pocket := some k }) (modTagged tag Piece.atPocketPoint (s.lane l).list)
        pockets :=
          (s.lane l).pockets.set k.val { (s.lane l).pockets.get k with inbound := ((s.lane l).pockets.get k).inbound + 1 }
            k.isLt }
  | clearCounts {a} : LaneChange i s l a a (s.lane l).clearCounters
  | judge {a} (m : MonitorId) (x : Monitor) (h : a = none ∨ a = some l) :
    LaneChange i s l a (some l) { s.lane l with monitors := (s.lane l).monitors.set m x }

theorem piece?_tag {s : State} {l : Lane} {tag : Tag} {p : Piece} (h : s.piece? l tag = some p) : p.tag = tag := by
  simpa using List.find?_some h

/-- A record measured, or left without its length, is kept (R53). -/
theorem Piece.kept_measured (g : Geometry) (n : Nat) (p : Piece) : p.Kept (Piece.measured g n p) := by
  constructor <;> simp [Piece.measured]

theorem handOff_kept_ne (s : State) {l m : Lane} (way : Way) (p : Piece) (h : m ≠ l) :
    (s.lane m).Kept ((s.handOff l way p).lane m) := by
  rw [handOff_lane_ne _ _ _ h]
  exact .refl _

theorem decisionDue_undecided {g : Geometry} {x : LaneS} {p : Piece} (h : x.decisionDue g p = true) :
    p.decisionTaken = false := by
  unfold LaneS.decisionDue at h
  simp only [Bool.and_eq_true, Bool.not_eq_true'] at h
  exact h.1.1.2

/-- A decision written to one lane leaves the other. -/
theorem settle_lane_ne {s : State} {l m : Lane} (p : Piece) (d : Decision) (h : m ≠ l) :
    (s.lane m).Kept ((s.settle l p d).lane m) := by
  have e : (s.settle l p d).lane m = s.lane m := by
    unfold State.settle
    split
    · unfold State.countLate
      split <;> simp [State.modPiece, State.countWindow, State.modLane_lane_ne _ _ h]
    · unfold State.countUnstruck
      dsimp only
      split <;> split <;> simp [State.modPiece, State.count, State.book, State.modHead, State.modLane_lane_ne _ _ h]
  rw [e]
  exact .refl _

/-- A move of a lane keeps both lanes, or keeps one and changes the other. -/
theorem LaneMove.change {i : Instr} {a b : Option Lane} {s t : State} (h : LaneMove i a s b t) :
    a = b ∧ s.Kept t ∨ ∃ l, LaneChange i s l a b (t.lane l) ∧ ∀ m, m ≠ l → (s.lane m).Kept (t.lane m) := by
  have others {l : Lane} (f : LaneS → LaneS) (m : Lane) (hm : m ≠ l) : (s.lane m).Kept ((s.modLane l f).lane m) := by
    rw [State.modLane_lane_ne _ _ hm]
    exact .refl _
  have own {l : Lane} {f : LaneS → LaneS} (hc : LaneChange i s l a b (f (s.lane l))) :
      a = b ∧ s.Kept (s.modLane l f)
        ∨ ∃ l', LaneChange i s l' a b ((s.modLane l f).lane l') ∧ ∀ m, m ≠ l' → (s.lane m).Kept ((s.modLane l f).lane m) :=
    .inr ⟨l, by rwa [State.modLane_lane], others f⟩
  cases h with
  | alike f h => exact .inl ⟨rfl, modLane_kept h.toKept⟩
  | rate s h => exact own (.rate h)
  | file s l b q x => exact own (.file b q x)
  | capture hi h => exact own (.capture hi h)
  | @reopen _ _ l p h hp hd he => exact .inl ⟨rfl, reopen_kept s l (by rw [he]; nofun)⟩
  | @measure _ _ l p st n hp he =>
    refine .inl ⟨rfl, modLane_kept ?_⟩
    exact {
      LaneS.Kept.refl (s.lane l) with
      idle := ⟨nofun, fun h => by rw [he] at h; cases h⟩
      list := modTagged_kept fun q => q.kept_measured _ _ }
  | abandon => exact .inl ⟨rfl, abandonScan_kept s _ _⟩
  | ask hp hs hn => exact .inl ⟨rfl, askSlot_kept s _ _⟩
  | askReady => exact .inl ⟨rfl, askReady_kept s _⟩
  | @jam _ _ l hi h =>
    have hk := withdrawLane_kept (s.modLane l LaneS.jammed) l
    have hl := hk.lanes l
    rw [State.modLane_lane] at hl
    exact .inr ⟨l, .jam hi h hl, fun m hm => (others _ m hm).trans (hk.lanes m)⟩
  | @retire _ l tag p hi hp hd hk hn =>
    exact .inr ⟨l, by rw [handOff_lane]; exact .retire hi hp hd hk, fun m hm => handOff_kept_ne s _ p hm⟩
  | @glitch _ l p st hi hp he hd =>
    refine .inr ⟨l, ?_, fun m hm => (others _ m hm).trans (handOff_kept_ne _ _ p hm)⟩
    rw [handOff_lane, State.modLane_lane]
    exact .glitch hi hp he hd
  | @clear _ _ l hi h =>
    refine .inr ⟨l, by rw [handOffAll_lane_eq]; exact .clear hi h, fun m hm => ?_⟩
    rw [handOffAll_lane_ne _ _ hm]
    exact .refl _
  | leaveJam hi h hl => exact own (.leaveJam hi h hl)
  | drain hi h hl => exact own (.drain hi h hl)
  | stop hi h => exact own (.stop hi h)
  | start hi h => exact own (.start hi h)
  | resume hi h => exact own (.resume hi h)
  | @decide _ _ l tag p q hi hp hd hq =>
    have hk := settleScan_kept (s.modPiece l tag fun q => { q with decisionTaken := true }) l tag
    have hl := hk.lanes l
    have htag : q.tag = tag := piece?_tag hq
    have hg : (s.atDecision l tag).geometry l = s.geometry l := by rw [atDecision_within s l tag]; rfl
    rw [State.modPiece, State.modLane_lane] at hl
    have hy := settle_settled (s.atDecision l tag) l q ((s.atDecision l tag).decision l q)
    have hb := settle_books (s.atDecision l tag) l q
    rw [htag] at hy hb
    rw [hg] at hb
    refine .inr ⟨l, .decide hi hp (decisionDue_undecided hd) hl hy hb, fun m hm => ?_⟩
    exact (others _ m hm).trans ((hk.lanes m).trans (settle_lane_ne _ _ hm))
  | fire hi hk hs => exact own (.fire hi hk hs)
  | suppress hi hk hs => exact own (.suppress hi hk hs)
  | endStrike hi hk hs => exact own (.endStrike hi hk hs)
  | passPocket hp => exact own (.passPocket hp)
  | @choose _ _ l tag p k hp hk hc =>
    have htag : p.tag = tag := piece?_tag hp
    refine .inr ⟨l, ?_, fun m hm => ?_⟩
    · have e := LaneChange.choose (i := i) (a := a) hp hk hc
      simpa [State.modPiece, State.modPocket, htag] using e
    · simp only [State.modPiece, State.modPocket, State.modLane_lane_ne _ _ hm]
      exact .refl _
  | clearCounts => exact own .clearCounts
  | judge m x h => exact own (.judge m x h)
  | finish h => exact .inl ⟨rfl, finish_kept s _⟩
  | takeJob => exact .inl ⟨rfl, takeJob_kept s⟩

end Sys2Proof.Machine

/-! O52: the outbound queues stay filed and served, and the band rings in their one form. -/

namespace Sys2Proof.Machine

/-- Once the arbiter has run, no frame waits while the link is free (R12). -/
theorem arbitrate_free (s : State) : s.arbitrate.FreeLinkIsIdle := by
  intro h
  unfold State.arbitrate at h ⊢
  cases hs : s.link.sending with
  | some x => rw [hs] at h; cases h.symm.trans hs
  | none =>
    rw [hs] at h
    dsimp only at h ⊢
    cases ha : s.link.act.a with
    | cons f fs =>
      cases hb : s.link.act.b with
      | nil => simp [actToServe, ha, hb, State.grantAct, PerLane.get] at h
      | cons g gs =>
        simp only [actToServe, ha, hb] at h
        cases hl : s.link.lastAct <;> simp [hl, otherLane, State.grantAct, PerLane.get, ha, hb] at h
    | nil =>
      cases hb : s.link.act.b with
      | cons f fs => simp [actToServe, ha, hb, State.grantAct, PerLane.get] at h
      | nil =>
        simp only [actToServe, ha, hb] at h ⊢
        cases hp : s.link.fifo with
        | cons u us =>
          cases hq : s.reports.queued <;> simp only [hp, hq] at h
          · simp [State.grantPass, hp] at h
          · cases hg : s.link.lastGrant <;> simp [hg, State.grantPass, State.grantReport, hp, hq] at h
        | nil =>
          cases hq : s.reports.queued with
          | cons f fs => simp [hp, hq, State.grantReport] at h
          | nil =>
            simp only
            exact ⟨fun l => by cases l <;> assumption, hp, hq⟩

/-- The queues are filed and served (R10 to R13). -/
structure State.LinkRight (s : State) : Prop where
  filed : s.FramesFiled
  free : s.FreeLinkIsIdle

/-- The arbiter leaves filed queues served. -/
theorem arbitrate_linkRight {s : State} (hf : s.FramesFiled) : s.arbitrate.LinkRight :=
  ⟨(State.arbitrate_traffic hf).2, arbitrate_free s⟩

/-- Equal queues and transmitter are filed and served alike. -/
theorem State.LinkRight.same {s t : State} (h : s.LinkRight) (hp : t.link.fifo = s.link.fifo) (ha : t.link.act = s.link.act)
    (hs : t.link.sending = s.link.sending) (hq : t.reports.queued = s.reports.queued) : t.LinkRight := by
  obtain ⟨⟨h1, h2⟩, h3⟩ := h
  refine ⟨⟨ha ▸ h1, hq ▸ h2⟩, ?_⟩
  unfold State.FreeLinkIsIdle at *
  rw [hp, ha, hs, hq]
  exact h3

theorem queueReport_linkRight {s : State} (hf : s.FramesFiled) {f : OutFrame} (h : f.isReport = true) :
    (s.queueReport f).LinkRight := by
  obtain ⟨-, -, -, -, hf⟩ := State.queueReport_spec hf h
  exact ⟨hf, arbitrate_free _⟩

theorem postNotice_linkRight {s : State} (h : s.LinkRight) (d : Station) (m : NoticeMsg) : (s.postNotice d m).LinkRight := by
  unfold State.postNotice
  dsimp only
  split
  · refine queueReport_linkRight ?_ ?_
    · exact ⟨h.filed.act, h.filed.reports⟩
    · rfl
  · exact h.same rfl rfl rfl rfl

theorem closeBatch_linkRight {s : State} (h : s.LinkRight) : s.closeBatch.LinkRight := by
  unfold State.closeBatch State.notice
  split
  · exact h
  · have h' : State.LinkRight { s with reports := { s.reports with batch := [] } } := h.same rfl rfl rfl rfl
    split
    · exact postNotice_linkRight h' _ _
    · exact h'

theorem appendReport_linkRight {s : State} (h : s.LinkRight) (r : PieceReport) : (s.appendReport r).LinkRight := by
  unfold State.appendReport
  dsimp only
  have h' : State.LinkRight { s with reports := { s.reports with batch := s.reports.batch ++ [r] } } := h.same rfl rfl rfl rfl
  split
  · split
    · exact closeBatch_linkRight h'
    · exact h'
  · exact h

theorem respond_linkRight {s : State} (h : s.LinkRight) (c : Cmd) (rc : ResponseCode) (d : List Byte) :
    (s.respond c rc d).LinkRight := by
  refine queueReport_linkRight ?_ ?_
  · exact ⟨h.filed.act, h.filed.reports⟩
  · rfl

/-- An emptied ACT queue leaves the others as they were (R11). -/
theorem emptyAct_linkRight {s : State} (h : s.LinkRight) (l : Lane) : (s.emptyAct l).LinkRight := by
  have less (m : Lane) : (s.emptyAct l).link.act.get m = [] ∨ (s.emptyAct l).link.act.get m = s.link.act.get m := by
    by_cases hm : m = l
    · exact .inl (by simp [State.emptyAct, hm])
    · exact .inr (by simp [State.emptyAct, PerLane.get_set_ne _ _ hm])
  refine ⟨⟨fun m f hf => ?_, h.filed.reports⟩, fun hs => ?_⟩
  · rcases less m with e | e <;> rw [e] at hf
    · cases hf
    · exact h.filed.act m f hf
  · obtain ⟨h1, h2, h3⟩ := h.free hs
    exact ⟨fun m => (less m).elim id fun e => e.trans (h1 m), h2, h3⟩

theorem Outer.linkRight {s t : State} (h : Outer s t) (hs : s.LinkRight) : t.LinkRight := by
  cases h with
  | aside h => exact hs.same h.fifo h.act h.sending h.queued
  | @joinAct l m h =>
    obtain ⟨-, -, -, -, hf⟩ := State.joinAct_spec hs.filed l m
    exact ⟨hf, arbitrate_free _⟩
  | emptyAct l => exact emptyAct_linkRight hs _
  | offer u =>
    unfold State.offer
    split
    · exact arbitrate_linkRight ⟨hs.filed.act, hs.filed.reports⟩
    · exact hs.same rfl rfl rfl rfl
  | postNotice d m => exact postNotice_linkRight hs _ _
  | closeBatch => exact closeBatch_linkRight hs
  | appendReport r => exact appendReport_linkRight hs _
  | sent => exact arbitrate_linkRight ⟨hs.filed.act, hs.filed.reports⟩
  | complete rc d h => refine respond_linkRight ?_ _ _ _; exact hs.same rfl rfl rfl rfl
  | take h hq => exact hs.same rfl rfl rfl rfl
  | accept c h => exact hs.same rfl rfl rfl rfl
  | setMask m h => exact hs.same rfl rfl rfl rfl
  | @setPieceReport level on h hl =>
    have h' : (s.setPieceReport on level).LinkRight := hs.same rfl rfl rfl rfl
    unfold State.closeWhenFull
    split
    · exact closeBatch_linkRight h'
    · exact h'
  | answerReset c h => exact queueReport_linkRight hs.filed rfl

theorem StoreMove.linkRight {s t : State} (h : StoreMove s t) (hs : s.LinkRight) : t.LinkRight := by
  cases h with
  | enter h => rw [enterEntry_eq]; exact hs.same rfl rfl rfl rfl
  | past h he =>
    rcases pastEntry_cases s h with ⟨p, mark, rest, -, -, -, e⟩ | ⟨p, mark, -, -, e⟩ | ⟨p, q, rest, -, -, -, e⟩ | ⟨p, q, -, -, e⟩ <;>
      rw [e]
    · exact hs.same rfl rfl rfl rfl
    · refine respond_linkRight ?_ _ _ _; exact hs.same rfl rfl rfl rfl
    · exact hs.same rfl rfl rfl rfl
    · refine respond_linkRight ?_ _ _ _; exact hs.same rfl rfl rfl rfl
  | phase p => exact hs.same rfl rfl rfl rfl
  | commit h hw he => exact hs.same rfl rfl rfl rfl

theorem Move.linkRight {i : Instr} {a b : Option Lane} {s t : State} (h : Move i a s b t) (hs : s.LinkRight) :
    t.LinkRight := by
  cases h with
  | outer h => exact h.linkRight hs
  | store h => exact h.linkRight hs
  | lane h =>
    rw [h.within]
    exact hs.same rfl rfl rfl rfl
  | reset hi =>
    have hr := resetBlocks_reset s
    refine ⟨⟨fun l f hf => hs.filed.act l f (hr.link ▸ hf), fun f hf => ?_⟩, fun hn => ?_⟩
    · rw [hr.queued] at hf
      cases hf
    · obtain ⟨h1, h2, -⟩ := hs.free (hr.link ▸ hn)
      exact ⟨fun l => hr.link ▸ h1 l, hr.link ▸ h2, hr.queued⟩
  | power hi =>
    refine ⟨⟨fun l f hf => ?_, fun f hf => nomatch hf⟩, fun _ => ⟨fun l => ?_, rfl, rfl⟩⟩
    · cases l <;> cases hf
    · cases l <;> rfl

/-! ### Rings -/

/-- The rings of a lane are in their one form. -/
def LaneS.RingsCanonical (x : LaneS) : Prop := ∀ b, Ring.canonical (x.rings.get b)

theorem LaneS.RingsCanonical.same {x y : LaneS} (h : x.RingsCanonical) (e : y.rings = x.rings) : y.RingsCanonical := by
  unfold LaneS.RingsCanonical
  rw [e]
  exact h

/-- A sample filed keeps the rings in their one form (R63). -/
theorem LaneS.RingsCanonical.file {x : LaneS} (h : x.RingsCanonical) (b : Band) (q : Pos) (d : Sample) :
    (x.file b q d).RingsCanonical := by
  intro c
  show Ring.canonical ((x.rings.set b (Ring.file (x.rings.get b) q d)).get c)
  rw [PerBand.get_set_eq]
  split
  · exact Ring.file_canonical (h b) q d
  · exact h c

theorem LaneChange.ringsCanonical {i : Instr} {s : State} {l : Lane} {a b : Option Lane} {y : LaneS}
    (h : LaneChange i s l a b y) (hx : (s.lane l).RingsCanonical) : y.RingsCanonical := by
  cases h with
  | file => exact hx.file _ _ _
  | rate | capture | leaveJam | drain | stop | start | resume | fire | suppress | endStrike | passPocket | choose
  | clearCounts | judge => exact hx.same rfl
  | jam hi h hy => exact hx.same hy.rings
  | retire | glitch =>
    obtain ⟨c, ks, w, e, -⟩ := LaneS.handOff_eq _ _ _
    rw [e]
    exact hx.same rfl
  | clear =>
    obtain ⟨-, -, -, -, -, -, e, -⟩ := LaneS.handOffs_keeps .jamClear (s.lane l).list (s.lane l)
    exact hx.same e
  | decide hi hp hd hk hy hb => exact hx.same (hy.rings.trans hk.rings)

theorem Move.ringsCanonical {i : Instr} {a b : Option Lane} {s t : State} (h : Move i a s b t) (hs : s.RingsCanonical) :
    t.RingsCanonical := by
  intro m
  cases h with
  | outer h => rw [h.lane]; exact hs m
  | store h => rw [h.lane]; exact hs m
  | lane h =>
    rcases h.change with ⟨-, h⟩ | ⟨l, hl, ho⟩
    · exact LaneS.RingsCanonical.same (hs m) (h.lanes m).rings
    · by_cases hm : m = l
      · subst hm; exact hl.ringsCanonical (hs m)
      · exact LaneS.RingsCanonical.same (hs m) (ho m hm).rings
  | reset hi =>
    rw [resetBlocks_lane]
    obtain ⟨-, -, -, -, -, -, e⟩ := (s.lane m).resetOwn_values
    intro b
    rw [e]
    cases b <;> exact Ring.canonical_nil
  | power hi =>
    intro b
    cases m <;> cases b <;> exact Ring.canonical_nil

/-- Settles O52: each move keeps the queues filed and served, and files samples in the rings' one form. -/
theorem queuesStayServedAndRingsCanonical : Obligations.QueuesStayServedAndRingsCanonical := by
  intro s t h
  refine ⟨fun hf hl => ?_, step_keeps (fun _ _ hs => hs) (fun _ _ _ _ _ m hs => m.ringsCanonical hs) h⟩
  have ht := step_keeps (P := State.LinkRight) (fun _ _ hs => hs.same rfl rfl rfl rfl)
    (fun _ _ _ _ _ m hs => m.linkRight hs) h ⟨hf, hl⟩
  exact ⟨ht.filed, ht.free⟩

end Sys2Proof.Machine

/-! O60: how a lane's state changes. -/

namespace Sys2Proof.Machine

/-- A lane may have gone from one state to another within a step (R45 to R48, R57 to R59, R61). -/
def StateChange (i : Instr) (l : Lane) : LaneState → LaneState → Prop
  | .running, .draining => i = .laneStop
  | .running, .stopped => i = .laneStop ∨ resets i = true
  | .running, .jammed | .draining, .jammed => canJam l i
  | .draining, .running | .stopped, .running | .stopped, .jammed => i = .laneStart
  | .draining, .stopped => canDrain l i ∨ resets i = true
  | .jammed, .stopped => i = .jamClear ∨ resets i = true
  | .stopped, .draining | .jammed, .running | .jammed, .draining => False
  | .running, .running | .draining, .draining | .stopped, .stopped | .jammed, .jammed => True

theorem StateChange.refl (i : Instr) (l : Lane) (x : LaneState) : StateChange i l x x := by cases x <;> trivial

/-- A reset leads to STOPPED from every state (R61). -/
theorem StateChange.stopped {i : Instr} (hi : resets i = true) (l : Lane) (x : LaneState) : StateChange i l x .stopped := by
  cases x with
  | stopped => trivial
  | running => exact .inr hi
  | draining => exact .inr hi
  | jammed => exact .inr hi

/-- A jam may follow where its step can jam a lane that moves (R57). -/
theorem StateChange.jam {i : Instr} {l : Lane} {x y : LaneState} (h : StateChange i l x y) (hi : canJam l i)
    (hy : y = .running ∨ y = .draining) : StateChange i l x .jammed := by
  rcases hy with rfl | rfl <;> cases x <;> trivial

theorem StateChange.leaveJam {i : Instr} {l : Lane} {x : LaneState} (h : StateChange i l x .jammed) (hi : i = .jamClear) :
    StateChange i l x .stopped := by
  subst hi
  cases x with
  | stopped => trivial
  | running => exact h.elim
  | draining => exact h.elim
  | jammed => exact .inl rfl

theorem StateChange.drain {i : Instr} {l : Lane} {x : LaneState} (h : StateChange i l x .draining) (hi : canDrain l i) :
    StateChange i l x .stopped := by
  cases x with
  | stopped => trivial
  | running => exact .inl h
  | draining => exact .inl hi
  | jammed => exact h.elim

theorem StateChange.stop {i : Instr} {l : Lane} {x : LaneState} (h : StateChange i l x .running) (hi : i = .laneStop) :
    StateChange i l x .draining := by
  subst hi
  cases x with
  | stopped => cases h
  | running => rfl
  | draining => trivial
  | jammed => exact h.elim

theorem StateChange.start {i : Instr} {l : Lane} {x y : LaneState} (h : StateChange i l x y) (hi : i = .laneStart)
    (hy : y = .stopped ∨ y = .draining) : StateChange i l x .running := by
  subst hi
  cases x with
  | stopped => rfl
  | running => trivial
  | draining => rfl
  | jammed =>
    rcases hy with rfl | rfl
    · exact absurd h (by rintro (h | h) <;> cases h)
    · exact h.elim

/-- A retirement on one lane leaves the other lane's state (R57). -/
theorem StateChange.eq_of_retirement {l m : Lane} {tag : Tag} {x y : LaneState} (h : StateChange (.retirement m tag) l x y)
    (hne : l ≠ m) : y = x := by
  cases x <;> cases y <;> simp_all [StateChange, canJam, canDrain, resets, hne.symm]

theorem LaneS.active_iff (x : LaneS) : x.active = true ↔ x.state = .running ∨ x.state = .draining := by
  simp [LaneS.active]

/-- A changed lane's state has changed as it may, or not at all. -/
theorem LaneChange.stateChange {i : Instr} {s : State} {l : Lane} {a b : Option Lane} {y : LaneS} {x : LaneState}
    (h : LaneChange i s l a b y) (hx : StateChange i l x (s.lane l).state) : StateChange i l x y.state := by
  cases h with
  | rate | file | capture | fire | suppress | endStrike | passPocket | choose | clearCounts | judge => exact hx
  | jam hi h hy =>
    rw [hy.state]
    exact hx.jam hi ((LaneS.active_iff _).1 h)
  | retire | glitch =>
    obtain ⟨c, ks, w, e, -⟩ := LaneS.handOff_eq _ _ _
    rw [e]
    exact hx
  | clear =>
    obtain ⟨e, -⟩ := LaneS.handOffs_keeps .jamClear (s.lane l).list (s.lane l)
    rw [e]
    exact hx
  | leaveJam hi h => exact (h ▸ hx).leaveJam hi
  | drain hi h => exact (h ▸ hx).drain hi
  | stop hi h => exact (h ▸ hx).stop hi
  | start hi h => exact hx.start hi (.inl h)
  | resume hi h => exact hx.start hi (.inr h)
  | decide hi hp hd hk hy hb =>
    rw [hy.state, hk.state]
    exact hx

theorem Move.stateChange {i : Instr} {a b : Option Lane} {s t : State} (h : Move i a s b t) {l : Lane} {x : LaneState}
    (hx : StateChange i l x (s.lane l).state) : StateChange i l x (t.lane l).state := by
  cases h with
  | outer h => rw [h.lane]; exact hx
  | store h => rw [h.lane]; exact hx
  | lane h =>
    rcases h.change with ⟨-, h⟩ | ⟨m, hm, ho⟩
    · rw [(h.lanes l).state]; exact hx
    · by_cases hl : l = m
      · subst hl; exact hm.stateChange hx
      · rw [(ho l hl).state]; exact hx
  | reset hi =>
    rw [resetBlocks_lane]
    exact .stopped hi l x
  | power hi => cases l <;> exact .stopped hi _ x

theorem Moves.stateChange {i : Instr} {a b : Option Lane} {s t : State} (h : Moves i a s b t) (l : Lane) :
    StateChange i l (s.lane l).state (t.lane l).state :=
  h.keeps (P := fun _ u => StateChange i l (s.lane l).state (u.lane l).state) (fun _ _ _ _ m hx => m.stateChange hx)
    (.refl _ _ _)

/-- A command's completion has what its answers have, and its effect where its arguments are valid. -/
theorem completion_keeps {P : State → Prop} {α : Type} {s : State} {code : Byte} {parse : List Byte → Args α}
    {act : State → Cmd → α → State} (hs : P s) (hc : ∀ c rc d, P (s.complete c rc d))
    (ha : ∀ c x, s.interp.executing = some c → P (act s c x)) : P (s.completion code parse act) := by
  unfold State.completion
  split
  · exact hs
  · rename_i c he
    obtain ⟨he, -⟩ := Option.filter_eq_some_iff.1 he
    split
    · exact hc _ _ _
    · exact hc _ _ _
    · exact ha _ _ he

/-- LANE_STOP leaves a lane that is not RUNNING in its state (R47). -/
theorem laneStop_state {s t : State} (h : execLaneStop s = .next t) {l : Lane} (hl : (s.lane l).state ≠ .running) :
    (t.lane l).state = (s.lane l).state := by
  cases h
  refine completion_keeps (P := fun u => (u.lane l).state = (s.lane l).state) rfl (fun c rc d => by simp) fun c m he => ?_
  split
  · rename_i hm
    have hne : l ≠ m := fun e => hl (e ▸ hm)
    have hto : ((s.closeBatch.laneTo m .draining).lane l).state = (s.lane l).state := by
      rw [laneTo_eq]
      simp [State.modLane_lane_ne _ _ hne]
    have hmv : Moves (.retirement m 0) none (s.closeBatch.laneTo m .draining) none ((s.stopLane m).done c) :=
      Moves.complete ((updateRate_moves (l := m) (by rfl) (.inl rfl)).trans (drain_moves (by rfl))) (by simpa [laneTo_eq] using he)
        (by simp) _ _
    have hch := hmv.stateChange l
    rw [hto] at hch
    exact hch.eq_of_retirement hne
  all_goals simp [State.done]

/-- The steps that can jam a lane, named (R57). -/
theorem canJam_cases {i : Instr} {l : Lane} (h : canJam l i) :
    i = .beltStep l false ∨ i = .coveredLimit l ∨ (∃ unit, i = .actStatusFrame unit) ∨ i = .leadingEdge l
      ∨ i = .trailingEdge l ∨ i = .windowEnd l ∨ i = .laneStart ∨ i = .laneStop
      ∨ ∃ tag, i = .decisionPoint l tag ∨ i = .pocketPoint l tag ∨ i = .retirement l tag := by
  unfold canJam at h
  split at h
  · obtain ⟨rfl, rfl⟩ := h; simp
  all_goals first | exact h.elim | (subst h; simp) | simp

/-- The steps that can stop a drained lane, named (R48). -/
theorem canDrain_cases {i : Instr} {l : Lane} (h : canDrain l i) :
    (∃ tag, i = .retirement l tag) ∨ i = .trailingEdge l ∨ i = .laneStop := by
  unfold canDrain at h
  split at h
  · subst h; exact .inl ⟨_, rfl⟩
  · subst h; exact .inr (.inl rfl)
  · exact .inr (.inr rfl)
  · exact h.elim

/-- A reset stops a lane or leaves its state (R34, R61). -/
theorem StateChange.of_resets {i : Instr} {l : Lane} {x y : LaneState} (h : StateChange i l x y) (hi : resets i = true) :
    y = .stopped ∨ y = x := by
  unfold resets at hi
  split at hi
  · cases x <;> cases y <;> simp_all [StateChange, canJam]
  · cases x <;> cases y <;> simp_all [StateChange, canJam]
  · cases x <;> cases y <;> simp_all [StateChange, canJam]
  · cases hi

/-- Settles O60: the moves that change a lane's state stand under the guards of the steps that make them. -/
theorem laneStatesChangeByTheirSteps : Obligations.LaneStatesChangeByTheirSteps := by
  intro i s t l h x y
  obtain ⟨u, hu, hm⟩ := exec_moves i s
  obtain rfl : u = t := Host.Outcome.next.inj (hu.symm.trans h)
  have hc : StateChange i l x y := hm.stateChange l
  have hstop : i = .laneStop → x ≠ .running → y = x := by
    rintro rfl hx
    exact laneStop_state h hx
  clear_value x y
  refine ⟨fun hx hy => ?_, fun hx hy => ?_, fun hy hx => ?_, fun hy hx => ?_, fun hx hy => ?_, fun hx hy => ?_,
    fun hy hx => ?_, hc.of_resets⟩
  · subst hx
    cases y with
    | stopped => exact absurd rfl hy
    | running => exact hc
    | draining => exact hc.elim
    | jammed => exact hc
  · subst hx
    cases y with
    | stopped => exact ⟨rfl, hc⟩
    | running => exact hc.elim
    | draining => exact hc.elim
    | jammed => exact absurd rfl hy
  · subst hy
    cases x with
    | stopped => exact hc.elim
    | running => exact ⟨rfl, hc⟩
    | draining => exact absurd rfl hx
    | jammed => exact hc.elim
  · subst hy
    cases x with
    | stopped => exact ⟨.inl rfl, hc⟩
    | running => exact absurd rfl hx
    | draining => exact ⟨.inr rfl, hc⟩
    | jammed => exact hc.elim
  · subst hx hy
    exact hc
  · subst hx hy
    rcases hc with hc | hc
    · rcases canDrain_cases hc with ⟨tag, hi⟩ | hi | hi
      · exact .inl ⟨tag, hi⟩
      · exact .inr (.inl hi)
      · cases hstop hi nofun
    · exact .inr (.inr hc)
  · subst hy
    cases x with
    | stopped => exact ⟨.inr (.inr ⟨rfl, hc⟩), canJam_cases (hc ▸ trivial)⟩
    | running => exact ⟨.inl rfl, canJam_cases hc⟩
    | draining => exact ⟨.inr (.inl rfl), canJam_cases hc⟩
    | jammed => exact absurd rfl hx

end Sys2Proof.Machine

/-! O47: a staged entry is read from the bytes of its layout. -/

namespace Sys2Proof.Machine

theorem byte_of_toNat (b : Byte) : byte b.toNat = b := by simp [byte]

theorem beBytes_two (n : Nat) : beBytes 2 n = [byte (n / 256), byte n] := by simp [beBytes, byte]

theorem beBytes_three (n : Nat) : beBytes 3 n = [byte (n / 65536), byte (n / 256), byte n] := by simp [beBytes, byte]

/-- Two bytes are those of the number they spell (R174). -/
theorem beBytes_beNat_two (a b : Byte) : beBytes 2 (beNat [a, b]) = [a, b] := by
  rw [beBytes_two, beNat_two]
  have ha := a.isLt
  have hb := b.isLt
  congr 2
  · apply BitVec.eq_of_toNat_eq; simp [byte]; omega
  · apply BitVec.eq_of_toNat_eq; simp [byte]; omega

theorem beBytes_beNat_three (a b c : Byte) : beBytes 3 (beNat [a, b, c]) = [a, b, c] := by
  rw [beBytes_three, beNat_three]
  have ha := a.isLt
  have hb := b.isLt
  have hc := c.isLt
  congr 3
  · apply BitVec.eq_of_toNat_eq; simp [byte]; omega
  · apply BitVec.eq_of_toNat_eq; simp [byte]; omega
  · apply BitVec.eq_of_toNat_eq; simp [byte]; omega

theorem beNat_two_lt (a b : Byte) : beNat [a, b] < 65536 := by
  rw [beNat_two]
  have ha := a.isLt
  have hb := b.isLt
  omega

/-- Bytes that are an entry's layout agree with it at every place. -/
def Entry.Spelled (e : Entry) (bs : List Byte) : Prop := ∀ i, i ∉ e.spare → bs[i]? = e.layout[i]?

theorem Entry.Spelled.of_eq {e : Entry} {bs : List Byte} (h : bs = e.layout) : e.Spelled bs := fun _ _ => by rw [h]

theorem channelOf_eq_some {b : Byte} {x : Channel} : channelOf b = some x ↔ b = byte x.toNat := by
  constructor
  · unfold channelOf
    split
    iterate 2
      · rename_i h
        rintro ⟨⟩
        exact BitVec.eq_of_toNat_eq h
    · nofun
  · rintro rfl
    cases x <;> rfl

theorem kindOf_eq_some {b : Byte} {x : MarkKind} : kindOf b = some x ↔ b = byte x.toNat := by
  constructor
  · unfold kindOf
    split
    iterate 3
      · rename_i h
        rintro ⟨⟩
        exact BitVec.eq_of_toNat_eq h
    · nofun
  · rintro rfl
    cases x <;> rfl

/-- A profile is read back from its layout (R82). -/
theorem readProfile_layout {s : State} {n : Fin 8} {p : Profile} (h : Entry.Allowed s (.profile n p)) :
    s.readEntry .ink (Entry.profile n p).layout = some (.profile n p) := by
  obtain ⟨h1, h2, h3, h4⟩ := h
  have hn := n.isLt
  have e1 := beNat_beBytes_two (n := p.scoreMin) (by omega)
  have e2 := beNat_beBytes_two (n := p.scoreMax) (by omega)
  rw [beBytes_two] at e1 e2
  have e3 : within 0 200 p.runMin = some p.runMin := within_eq_some.2 ⟨by omega, by omega, rfl⟩
  have e4 : within 0 200 p.runMax = some p.runMax := within_eq_some.2 ⟨by omega, by omega, rfl⟩
  simp only [State.readEntry, Entry.layout, beBytes_two, List.cons_append, List.nil_append, readInk, byte_toNat (show n.val < 256 by omega), hn, readProfile, switchOf_eq_some.2 rfl,
    channelOf_eq_some.2 rfl, kindOf_eq_some.2 rfl, e1, e2, byte_toNat (show p.runMin < 256 by omega), byte_toNat (show p.runMax < 256 by omega), e3, e4,
    Option.bind_eq_bind, Option.bind_some, keepIf_eq_some, dite_true, decide_eq_true_eq, and_true]
  exact ⟨h1, h3⟩

/-- Bytes read as a profile are its layout (R82). -/
theorem readProfile_some {s : State} {n : Byte} {hn : n.toNat < 8} {bs : List Byte} {e : Entry}
    (h : readProfile ⟨n.toNat, hn⟩ bs = some e) :
    e.table = .ink ∧ e.Allowed s ∧ e.Spelled (n :: bs) := by
  unfold readProfile at h
  split at h
  · simp only [Option.bind_eq_bind, Option.bind_eq_some_iff, switchOf_eq_some, channelOf_eq_some, kindOf_eq_some,
      within_eq_some, keepIf_eq_some, decide_eq_true_eq] at h
    obtain ⟨x, rfl, c, rfl, k, rfl, m1, ⟨-, hm1, rfl⟩, m2, ⟨-, hm2, rfl⟩, ⟨h1, h2⟩, rfl⟩ := h
    refine ⟨rfl, ⟨h1, ?_, h2, hm2⟩, .of_eq ?_⟩
    · exact Nat.le_of_lt_succ (beNat_two_lt _ _)
    · simp [Entry.layout, beBytes_beNat_two, byte_of_toNat]
  · cases h

/-- The channel record is read back from its layout (R83). -/
theorem readChannels_layout {s : State} {c : ChannelRecord} (h : Entry.Allowed s (.channels c)) :
    s.readEntry .ink (Entry.channels c).layout = some (.channels c) := by
  obtain ⟨h1, h2, h3, h4, h5, h6⟩ := h
  have e1 := beNat_beBytes_two (n := c.floorPH) (by omega)
  have e2 := beNat_beBytes_two (n := c.floorFL) (by omega)
  have e3 := beNat_beBytes_two (n := c.runLevelPH) (by omega)
  have e4 := beNat_beBytes_two (n := c.runLevelFL) (by omega)
  rw [beBytes_two] at e1 e2 e3 e4
  have w1 : within 0 1023 c.floorPH = some c.floorPH := within_eq_some.2 ⟨by omega, h1, rfl⟩
  have w2 : within 0 1023 c.floorFL = some c.floorFL := within_eq_some.2 ⟨by omega, h2, rfl⟩
  have w3 : within 1 4095 c.runLevelPH = some c.runLevelPH := within_eq_some.2 ⟨h3, h4, rfl⟩
  have w4 : within 1 4095 c.runLevelFL = some c.runLevelFL := within_eq_some.2 ⟨h5, h6, rfl⟩
  simp [State.readEntry, Entry.layout, beBytes_two, readInk, readChannels, e1, e2, e3, e4, w1, w2, w3, w4, keepIf,
    unusedOk]

theorem readChannels_some {s : State} {n : Byte} (hn : n.toNat = 8) {bs : List Byte} {e : Entry}
    (h : readChannels bs = some e) : e.table = .ink ∧ e.Allowed s ∧ e.Spelled (n :: bs) := by
  obtain rfl : n = 8 := BitVec.eq_of_toNat_eq hn
  unfold readChannels at h
  split at h
  · simp only [Option.bind_eq_bind, Option.bind_eq_some_iff, within_eq_some, keepIf_eq_some] at h
    obtain ⟨m1, ⟨-, h1, rfl⟩, m2, ⟨-, h2, rfl⟩, m3, ⟨h3, h4, rfl⟩, m4, ⟨h5, h6, rfl⟩, -, rfl⟩ := h
    refine ⟨rfl, ⟨h1, h2, h3, h4, h5, h6⟩, fun i hi => ?_⟩
    simp only [Entry.layout, beBytes_beNat_two]
    have hi : i ≠ 9 := by simpa [Entry.spare] using hi
    rcases i with _ | _ | _ | _ | _ | _ | _ | _ | _ | _ | i
    all_goals first | rfl | exact absurd rfl hi
  · cases h

theorem byte_fin_toNat {n : Nat} (hn : n ≤ 256) (k : Fin n) : (byte k.val).toNat = k.val := byte_toNat (by omega)

/-- A number of a byte below a bound (R174). -/
theorem below_byte_eq_some {n : Nat} (hn : n ≤ 256) {b : Byte} {k : Fin n} :
    below n b.toNat = some k ↔ b = byte k.val := by
  rw [below_eq_some]
  constructor
  · intro h
    rw [← h, byte_of_toNat]
  · rintro rfl
    exact byte_fin_toNat hn k

/-- A signature key is read from its three bytes (R92). -/
theorem readKey_eq_some {p w b : Byte} {k : SigKey} :
    readKey p w b = some k ↔ p = byte k.profile.val ∧ w = byte k.width.val ∧ b = byte k.band.val := by
  unfold readKey
  simp only [Option.bind_eq_bind, Option.bind_eq_some_iff, below_byte_eq_some (show 8 ≤ 256 by decide),
    below_byte_eq_some (show 32 ≤ 256 by decide), below_byte_eq_some (show 64 ≤ 256 by decide), Option.pure_def,
    Option.some.injEq]
  constructor
  · rintro ⟨x, rfl, y, rfl, z, rfl, rfl⟩
    exact ⟨rfl, rfl, rfl⟩
  · rintro ⟨rfl, rfl, rfl⟩
    exact ⟨_, rfl, _, rfl, _, rfl, rfl⟩

/-- A category of an entry is read from its byte (R92). -/
theorem readCategory_eq_some {c : Byte} {k : Fin 64} : readCategory c = some k ↔ c = byte k.val ∧ k.val ≤ 62 := by
  unfold readCategory
  have hk := byte_fin_toNat (show 64 ≤ 256 by decide) k
  split
  · rw [below_byte_eq_some (by decide)]
    constructor
    · rintro rfl
      exact ⟨rfl, by omega⟩
    · exact fun h => h.1
  · simp only [reduceCtorEq, false_iff, not_and]
    rintro rfl
    omega

/-- A PUT or a DROP is read back from its layout (R92). -/
theorem readPut_layout {s : State} {e : SigEntry} (h : Entry.Allowed s (.put e)) :
    s.readEntry .signature (Entry.put e).layout = some (.put e) := by
  obtain ⟨h1, h2⟩ := h
  have e1 := beNat_beBytes_two (n := e.value) (by omega)
  rw [beBytes_two] at e1
  simp [State.readEntry, Entry.layout, beBytes_two, readSignature, e1, readKey_eq_some.2 ⟨rfl, rfl, rfl⟩,
    readCategory_eq_some.2 ⟨rfl, h1⟩, switchOf_eq_some.2 rfl]

theorem readDrop_layout (s : State) (k : SigKey) :
    s.readEntry .signature (Entry.drop k).layout = some (.drop k) := by
  simp [State.readEntry, Entry.layout, readSignature, readKey_eq_some.2 ⟨rfl, rfl, rfl⟩, keepIf, unusedOk]

theorem readSignature_some {s : State} {bs : List Byte} {e : Entry} (h : readSignature bs = some e) :
    e.table = .signature ∧ e.Allowed s ∧ e.Spelled bs := by
  unfold readSignature at h
  split at h
  · rename_i op p w b c v1 v0 pre
    split at h
    · rename_i hop
      obtain rfl : op = 0#8 := BitVec.eq_of_toNat_eq hop
      simp only [Option.bind_eq_bind, Option.bind_eq_some_iff, readKey_eq_some, readCategory_eq_some, switchOf_eq_some,
        Option.pure_def, Option.some.injEq] at h
      obtain ⟨k, ⟨rfl, rfl, rfl⟩, c, ⟨rfl, hc⟩, x, rfl, rfl⟩ := h
      refine ⟨rfl, ⟨hc, Nat.le_of_lt_succ (beNat_two_lt _ _)⟩, .of_eq ?_⟩
      simp [Entry.layout, beBytes_beNat_two]
    · rename_i hop
      obtain rfl : op = 1#8 := BitVec.eq_of_toNat_eq hop
      simp only [Option.bind_eq_bind, Option.bind_eq_some_iff, readKey_eq_some, keepIf_eq_some] at h
      obtain ⟨k, ⟨rfl, rfl, rfl⟩, -, rfl⟩ := h
      refine ⟨rfl, trivial, fun i hi => ?_⟩
      simp only [Entry.spare, List.mem_cons, List.not_mem_nil, or_false, not_or] at hi
      rcases i with _ | _ | _ | _ | _ | _ | _ | _ | i
      all_goals first | rfl | omega
    · cases h
  · cases h

/-! ### Lane Geometry -/

theorem geometryOf_eq_some {src : Station} {ns : List Nat} {g : Geometry} :
    geometryOf src ns = some g ↔ g.loaded = true ∧ g.scanSource = src ∧ ns = g.fields := by
  constructor
  · unfold geometryOf
    split
    · rintro ⟨⟩
      exact ⟨rfl, rfl, rfl⟩
    · nofun
  · obtain ⟨⟩ := g
    rintro ⟨rfl, rfl, rfl⟩
    rfl

/-- The words of the bytes of numbers are the numbers. -/
theorem words_flatMap {ns : List Nat} (h : ∀ n ∈ ns, n < 65536) : words (ns.flatMap (beBytes 2)) = ns := by
  induction ns with
  | nil => rfl
  | cons n ns ih =>
    have e := beNat_beBytes_two (h n List.mem_cons_self)
    rw [beBytes_two] at e
    rw [List.flatMap_cons, beBytes_two]
    simp [words, e, ih fun m hm => h m (List.mem_cons_of_mem _ hm)]

/-- An even number of bytes are those of their words. -/
theorem flatMap_words {bs : List Byte} {n : Nat} (h : bs.length = 2 * n) : (words bs).flatMap (beBytes 2) = bs := by
  induction n generalizing bs with
  | zero =>
    rw [List.length_eq_zero_iff.1 h]
    rfl
  | succ n ih =>
    match bs with
    | [] => rfl
    | [_] => simp at h; omega
    | a :: b :: rest =>
      simp only [List.length_cons] at h
      rw [words, List.flatMap_cons, beBytes_beNat_two, ih (by omega)]
      rfl

/-- The ranges and cross-checks are those of an allowed record (R38, R39). -/
theorem geometry_allowed_iff {g : Geometry} :
    g.Allowed ↔ g.loaded = true ∧ g.ranges = true ∧ g.crossChecks = true := by
  constructor
  · rintro ⟨h1, h2, h3, h4, h5, h6, h7⟩
    refine ⟨h1, ?_, ?_⟩
    · simp only [Geometry.ranges, inside, Bool.and_eq_true, decide_eq_true_eq, bne_iff_ne, beq_iff_eq, and_assoc]
      exact ⟨h2.1, h2.2, by omega⟩
    · simp only [Geometry.crossChecks, decide_eq_true_eq]
      omega
  · rintro ⟨h1, h2, h3⟩
    simp only [Geometry.ranges, inside, Bool.and_eq_true, decide_eq_true_eq, bne_iff_ne, beq_iff_eq, and_assoc] at h2
    simp only [Geometry.crossChecks, decide_eq_true_eq] at h3
    obtain ⟨hl, hp, h2⟩ := h2
    exact ⟨h1, ⟨hl, hp⟩, by omega, by omega, by omega, by omega, by omega⟩

/-- A Lane Geometry record is read back from its layout (R38, R39). -/
theorem readGeometry_layout {s : State} {l : Lane} {g : Geometry} (h : g.Allowed) :
    s.readEntry .geometry (Entry.geometry l g).layout = some (.geometry l g) := by
  obtain ⟨h1, h2, h3⟩ := geometry_allowed_iff.1 h
  have hw : words (g.fields.flatMap (beBytes 2)) = g.fields := by
    refine words_flatMap fun n hn => ?_
    obtain ⟨-, -, h4, h5, h6, h7, h8⟩ := h
    simp only [Geometry.fields, List.mem_cons, List.not_mem_nil, or_false] at hn
    omega
  simp only [State.readEntry, Entry.layout, List.cons_append, List.nil_append, readGeometry, laneOf_eq_some.2 rfl,
    Option.bind_eq_bind, Option.bind_some]
  rw [show ([g.minLen, g.maxLen, g.minGap, g.maxCovered, g.sampleWait, g.cornerLen, g.refSeedPH, g.refSeedFL, g.refGuard,
    g.dDecide, g.dGate, g.gateSettle, g.dHeadL, g.dHeadT, g.leadIn, g.strikeLen, g.recoverLen, g.dPocket, g.dStack,
    g.reverseLimit] : List Nat) = g.fields from rfl, hw, geometryOf_eq_some.2 ⟨h1, rfl, rfl⟩, Option.bind_some, h2, h3]
  rfl

theorem readGeometry_some {s : State} {bs : List Byte} {e : Entry} (h : readGeometry bs = some e) :
    e.table = .geometry ∧ e.Allowed s ∧ (bs.length = 43 → e.Spelled bs) := by
  unfold readGeometry at h
  split at h
  · simp only [Option.bind_eq_bind, Option.bind_eq_some_iff, laneOf_eq_some, geometryOf_eq_some, keepIf_eq_some,
      Bool.and_eq_true] at h
    obtain ⟨l, rfl, g, ⟨h1, h2, h3⟩, ⟨h4, h5⟩, rfl⟩ := h
    refine ⟨rfl, geometry_allowed_iff.2 ⟨h1, h4, h5⟩, fun hlen => .of_eq ?_⟩
    rename_i sl sp rest
    have hr := flatMap_words (bs := rest) (n := 20) (by simpa using hlen)
    rw [← hr, h3, Entry.layout, h2]
    rfl
  · cases h

/-! ### Stacker Map -/

theorem inBank_iff (r : Fin 9) (k : Fin 10) :
    inBank r k = true ↔ r.val < 4 ∧ k.val < 4 ∨ 4 ≤ r.val ∧ r.val < 8 ∧ 4 ≤ k.val ∧ k.val < 8 ∨ r.val = 8 ∧ 8 ≤ k.val := by
  have hr := r.isLt
  unfold inBank
  split
  · simp only [decide_eq_true_eq]; omega
  · split <;> simp only [decide_eq_true_eq] <;> omega

/-- A route's list is read back from its layout (R131). -/
theorem readRoute_layout {s : State} {l : Lane} {r : Fin 9} {ks : List (Fin 10)} (h : Entry.Allowed s (.route l r ks)) :
    s.readEntry .stacker (Entry.route l r ks).layout = some (.route l r ks) := by
  obtain ⟨h1, h2, h3, h4⟩ := h
  have hb (k : Fin 10) : below 10 (byte k.val).toNat = some k := (below_byte_eq_some (by decide)).2 rfl
  have hall : ks.all (inBank r) = true := List.all_eq_true.2 fun k hk => (inBank_iff r k).2 (h4 k hk)
  have hr := byte_fin_toNat (show 9 ≤ 256 by decide) r
  have hlane := laneOf_eq_some (l := l).2 rfl
  have head (bs : List Byte) :
      s.readEntry .stacker (byte (laneNat l) :: byte r.val :: bs) = readRoute l r bs := by
    simp only [State.readEntry, State.readStacker, hlane, Option.bind_eq_bind, Option.bind_some]
    rw [dif_pos (by rw [hr]; exact r.isLt)]
    congr
  generalize hq : (ks.map fun k => byte k.val) ++ List.replicate (4 - ks.length) (0xFF : Byte) = qs
  have htake : qs.take ks.length = ks.map fun k => byte k.val := by
    rw [← hq, List.take_append_of_le_length (by simp)]
    exact List.take_of_length_le (by simp)
  have hdrop : qs.drop ks.length = List.replicate (4 - ks.length) (0xFF : Byte) := by
    rw [← hq, List.drop_append_of_le_length (by simp), List.drop_of_length_le (by simp), List.nil_append]
  have hread : (ks.map fun k => byte k.val).mapM (fun b => below 10 b.toNat) = some ks := by
    rw [mapM_eq_some, List.map_map]
    exact List.map_congr_left fun k _ => hb k
  have hlen : qs.length = 4 := by
    rw [← hq]
    simp
    omega
  have hn : (byte ks.length).toNat = ks.length := byte_toNat (by omega)
  obtain ⟨p1, p2, p3, p4, rfl⟩ : ∃ p1 p2 p3 p4, qs = [p1, p2, p3, p4] := by
    match qs, hlen with
    | [p1, p2, p3, p4], _ => exact ⟨p1, p2, p3, p4, rfl⟩
  simp only [Entry.layout, hq, List.cons_append, List.nil_append, head, readRoute]
  rw [hn, within_eq_some.2 ⟨h1, h2, rfl⟩]
  simp only [Option.bind_eq_bind, Option.bind_some, htake, hread, hdrop, hall, keepIf_eq_some, unusedOk]
  simp [h3]

/-- Bytes read as numbers below ten are theirs. -/
theorem mapM_below {bs : List Byte} {ks : List (Fin 10)} (h : bs.mapM (fun b => below 10 b.toNat) = some ks) :
    bs = ks.map fun k => byte k.val := by
  rw [mapM_eq_some] at h
  induction bs generalizing ks with
  | nil => cases ks <;> simp at h ⊢
  | cons b bs ih =>
    cases ks with
    | nil => simp at h
    | cons k ks =>
      simp only [List.map_cons, List.cons.injEq, below_byte_eq_some (show 10 ≤ 256 by decide)] at h
      rw [List.map_cons, ← h.1, ← ih h.2]

theorem readRoute_some {s : State} {l : Lane} {r : Fin 9} {bs : List Byte} {e : Entry} (h : readRoute l r bs = some e) :
    e.table = .stacker ∧ e.Allowed s ∧ e.Spelled (byte (laneNat l) :: byte r.val :: bs) := by
  unfold readRoute at h
  split at h
  · rename_i n p1 p2 p3 p4
    simp only [Option.bind_eq_bind, Option.bind_eq_some_iff, within_eq_some, keepIf_eq_some, Bool.and_eq_true,
      decide_eq_true_eq] at h
    obtain ⟨m, ⟨h1, h4, rfl⟩, ks, hks, ⟨⟨hbank, hnd⟩, -⟩, rfl⟩ := h
    have hmap := mapM_below hks
    have hlen : ks.length = n.toNat := by
      have := congrArg List.length hmap
      simp at this
      omega
    refine ⟨rfl, ⟨by omega, by omega, hnd, fun k hk => (inBank_iff r k).1 (List.all_eq_true.1 hbank k hk)⟩, fun i hi => ?_⟩
    simp only [Entry.layout, hlen, byte_of_toNat, ← hmap]
    simp only [Entry.spare, List.mem_filterMap, List.mem_range, hlen, not_exists, not_and] at hi
    rcases i with _ | _ | _ | j
    · rfl
    · rfl
    · rfl
    · simp only [List.getElem?_cons_succ, List.cons_append, List.nil_append]
      by_cases hj : j < n.toNat
      · have hj4 : j < 4 := by omega
        rw [List.getElem?_append_left (by simp; omega), List.getElem?_take_of_lt hj]
      · by_cases hj4 : j < 4
        · exact absurd (by rw [if_pos (by omega)]; congr 1; omega) (hi j hj4)
        · rw [List.getElem?_eq_none (by simp; omega), List.getElem?_eq_none (by simp; omega)]
  · cases h

/-- A level pair is read back from its layout (R131). -/
theorem readLevels_layout {s : State} {l : Lane} {k : Fin 10} {v : Levels} (h : Entry.Allowed s (.levels l k v)) :
    s.readEntry .stacker (Entry.levels l k v).layout = some (.levels l k v) := by
  obtain ⟨h1, h2, h3, h4, h5⟩ := h
  have hk : (byte (9 + k.val)).toNat = 9 + k.val := byte_toNat (by omega)
  have hnot : ¬(byte (9 + k.val)).toNat < 9 := by omega
  have hsub : (byte (9 + k.val)).toNat - 9 = k.val := by omega
  have e1 := beNat_beBytes_two (n := v.fullLevel) (by omega)
  have e2 := beNat_beBytes_two (n := v.hardLevel) (by omega)
  rw [beBytes_two] at e1 e2
  simp only [Entry.layout, beBytes_two, List.cons_append, List.nil_append, State.readEntry, State.readStacker,
    laneOf_eq_some.2 rfl, Option.bind_eq_bind, Option.bind_some]
  rw [dif_neg hnot, hsub, below_eq_some.2 rfl, Option.bind_some]
  simp only [State.readLevels, e1, e2, within_eq_some.2 ⟨h1, h2, rfl⟩, within_eq_some.2 ⟨h3, h4, rfl⟩,
    Option.bind_eq_bind, Option.bind_some, keepIf_eq_some, unusedOk]
  simp [h5]

theorem readLevels_some {s : State} {l : Lane} {k : Fin 10} {bs : List Byte} {e : Entry}
    (h : s.readLevels l k bs = some e) :
    e.table = .stacker ∧ e.Allowed s ∧ e.Spelled (byte (laneNat l) :: byte (9 + k.val) :: bs) := by
  unfold State.readLevels at h
  split at h
  · simp only [Option.bind_eq_bind, Option.bind_eq_some_iff, within_eq_some, keepIf_eq_some, Bool.and_eq_true,
      decide_eq_true_eq] at h
    obtain ⟨m, ⟨h1, h2, rfl⟩, n, ⟨h3, h4, rfl⟩, ⟨h5, -⟩, rfl⟩ := h
    refine ⟨rfl, ⟨h1, h2, h3, h4, h5⟩, fun i hi => ?_⟩
    simp only [Entry.layout, beBytes_beNat_two]
    have hi : i ≠ 6 := by simpa [Entry.spare] using hi
    rcases i with _ | _ | _ | _ | _ | _ | _ | i
    all_goals first | rfl | exact absurd rfl hi
  · cases h

theorem readStacker_some {s : State} {bs : List Byte} {e : Entry} (h : s.readStacker bs = some e) :
    e.table = .stacker ∧ e.Allowed s ∧ e.Spelled bs := by
  unfold State.readStacker at h
  split at h
  · rename_i item rest
    simp only [Option.bind_eq_bind, Option.bind_eq_some_iff, laneOf_eq_some] at h
    obtain ⟨l, rfl, h⟩ := h
    split at h
    · have := readRoute_some (s := s) h
      rwa [byte_of_toNat] at this
    · rename_i hitem
      simp only [Option.bind_eq_some_iff, below_eq_some] at h
      obtain ⟨k, hk, h⟩ := h
      have hr := readLevels_some h
      rwa [← hk, show 9 + (item.toNat - 9) = item.toNat by omega, byte_of_toNat] at hr
  · cases h

/-! ### Monitor Profile -/

theorem monitorOf_eq_some {item : Byte} {m : MonitorId} : monitorOf item = some m ↔ item = byte (1 + m.toNat) := by
  constructor
  · unfold monitorOf
    split
    iterate 4
      · rename_i h
        rintro ⟨⟩
        exact BitVec.eq_of_toNat_eq h
    · nofun
  · rintro rfl
    cases m <;> rfl

/-- The window's length is read back from its layout (R153). -/
theorem readWindow_layout {s : State} {n : Nat} (h : Entry.Allowed s (.window n)) :
    s.readEntry .monitor (Entry.window n).layout = some (.window n) := by
  obtain ⟨h1, h2⟩ := h
  have e1 := beNat_beBytes_two (n := n) (by omega)
  rw [beBytes_two] at e1
  simp [State.readEntry, Entry.layout, beBytes_two, readMonitor, e1, within_eq_some.2 ⟨h1, h2, rfl⟩, keepIf, unusedOk]

/-- A monitor's entry is read back from its layout (R153). -/
theorem readMonitor_layout {s : State} {m : MonitorId} {e : MonitorEntry} (h : Entry.Allowed s (.monitor m e)) :
    s.readEntry .monitor (Entry.monitor m e).layout = some (.monitor m e) := by
  obtain ⟨h1, h2, h3, h4, h5⟩ := h
  have hne : (byte (1 + m.toNat)).toNat ≠ 0 := by cases m <;> decide
  simp only [State.readEntry, Entry.layout, readMonitor, if_neg hne, monitorOf_eq_some.2 rfl, switchOf_eq_some.2 rfl,
    byte_toNat (show e.limit < 256 by omega), byte_toNat (show e.declareN < 256 by omega),
    byte_toNat (show e.clearM < 256 by omega), within_eq_some.2 ⟨h2, h3, rfl⟩, within_eq_some.2 ⟨h4, h5, rfl⟩,
    Option.bind_eq_bind, Option.bind_some, Option.pure_def]

theorem readMonitor_some {s : State} {bs : List Byte} {e : Entry} (h : readMonitor bs = some e) :
    e.table = .monitor ∧ e.Allowed s ∧ e.Spelled bs := by
  unfold readMonitor at h
  split at h
  · rename_i item a b c d
    split at h
    · rename_i hitem
      obtain rfl : item = 0#8 := BitVec.eq_of_toNat_eq hitem
      simp only [Option.bind_eq_bind, Option.bind_eq_some_iff, within_eq_some, keepIf_eq_some] at h
      obtain ⟨n, ⟨h1, h2, rfl⟩, -, rfl⟩ := h
      refine ⟨rfl, ⟨h1, h2⟩, fun i hi => ?_⟩
      simp only [Entry.layout, beBytes_beNat_two]
      simp only [Entry.spare, List.mem_cons, List.not_mem_nil, or_false, not_or] at hi
      rcases i with _ | _ | _ | _ | _ | i
      all_goals first | rfl | omega
    · simp only [Option.bind_eq_bind, Option.bind_eq_some_iff, within_eq_some, monitorOf_eq_some, switchOf_eq_some,
        Option.pure_def, Option.some.injEq] at h
      obtain ⟨m, rfl, x, rfl, n, ⟨h1, h2, rfl⟩, k, ⟨h3, h4, rfl⟩, rfl⟩ := h
      have hb := b.isLt
      refine ⟨rfl, ⟨by simp only; omega, h1, h2, h3, h4⟩, .of_eq ?_⟩
      simp [Entry.layout, byte_of_toNat]
  · cases h

/-! ### Die -/

theorem printing_iff (bs : List Byte) : printing bs = true ↔ Printable bs := by
  simp [printing, Printable]

/-- The Die common record is read back from its layout (R126). -/
theorem readDieCommon_layout {s : State} {c : DieCommon} (h : Entry.Allowed s (.dieCommon c)) :
    s.readEntry .die (Entry.dieCommon c).layout = some (.dieCommon c) := by
  obtain ⟨h1, h2, h3, h4, h5, h6⟩ := h
  have e26 : (c.officeCode ++ c.officeName ++ [byte c.lineNumber]).take 26 = c.officeCode ++ c.officeName :=
    List.take_left' (by simp [h1, h3])
  have e27 : (c.officeCode ++ c.officeName ++ [byte c.lineNumber]).drop 26 = [byte c.lineNumber] :=
    List.drop_left' (by simp [h1, h3])
  have e6 : (c.officeCode ++ c.officeName ++ [byte c.lineNumber]).take 6 = c.officeCode := by
    rw [List.append_assoc]
    exact List.take_left' h1
  have e7 : ((c.officeCode ++ c.officeName ++ [byte c.lineNumber]).drop 6).take 20 = c.officeName := by
    rw [List.append_assoc, List.drop_left' h1]
    exact List.take_left' h3
  have hp : printing (c.officeCode ++ c.officeName) = true :=
    (printing_iff _).2 fun b hb => (List.mem_append.1 hb).elim (h2 b) (h4 b)
  have hn : beNat [byte c.lineNumber] = c.lineNumber := by simp [beNat, byte]; omega
  have hw : (Entry.dieCommon c).layout = 0 :: (c.officeCode ++ c.officeName ++ [byte c.lineNumber]) := by simp [Entry.layout]
  rw [hw]
  show readDieCommon _ = _
  unfold readDieCommon
  rw [e27, hn, within_eq_some.2 ⟨Nat.zero_le _, h5, rfl⟩, e26, e6, e7]
  simp only [Option.bind_eq_bind, Option.bind_some, keepIf_eq_some]
  refine ⟨hp, ?_⟩
  rw [← h6]

/-- A Die head record is read back from its layout (R126). -/
theorem readDieHead_layout {s : State} {l : Lane} {h : HeadId} {d : DieHead} (ha : Entry.Allowed s (.dieHead l h d)) :
    s.readEntry .die (Entry.dieHead l h d).layout = some (.dieHead l h d) := by
  obtain ⟨h1, h2, h3, h4, h5⟩ := ha
  have e0 : d.text ++ [byte d.inkCost] ++ beBytes 3 d.inkLow ++ List.replicate 7 0
      = d.text ++ ([byte d.inkCost] ++ (beBytes 3 d.inkLow ++ List.replicate 7 0)) := by simp
  have ec := beNat_beBytes_three (n := d.inkLow) (by omega)
  have hread : readDieHead l h (d.text ++ [byte d.inkCost] ++ beBytes 3 d.inkLow ++ List.replicate 7 0)
      = some (.dieHead l h d) := by
    unfold readDieHead
    have t16 : (d.text ++ ([byte d.inkCost] ++ (beBytes 3 d.inkLow ++ List.replicate 7 0))).take 16 = d.text :=
      List.take_left' h1
    have d16 (n : Nat) : (d.text ++ ([byte d.inkCost] ++ (beBytes 3 d.inkLow ++ List.replicate 7 0))).drop (16 + n)
        = ([byte d.inkCost] ++ (beBytes 3 d.inkLow ++ List.replicate 7 0)).drop n := by
      rw [← List.drop_drop, List.drop_left' h1]
    have hcost : beNat ((([byte d.inkCost] ++ (beBytes 3 d.inkLow ++ List.replicate 7 0)).drop 0).take 1) = d.inkCost := by
      simp [beNat, byte]; omega
    have hlow : beNat ((([byte d.inkCost] ++ (beBytes 3 d.inkLow ++ List.replicate 7 0)).drop 1).take 3) = d.inkLow := by
      refine Eq.trans ?_ ec
      simp [beBytes_three]
    rw [e0, t16, d16 0, hcost, d16 1, hlow, d16 4, within_eq_some.2 ⟨h3, h4, rfl⟩, within_eq_some.2 ⟨Nat.zero_le _, h5, rfl⟩]
    simp [keepIf, unusedOk, beBytes_three, (printing_iff _).2 h2]
  have hl : (Entry.dieHead l h d).layout = byte (1 + 2 * laneNat l + headNat h)
      :: (d.text ++ [byte d.inkCost] ++ beBytes 3 d.inkLow ++ List.replicate 7 0) := by simp [Entry.layout]
  rw [hl]
  cases l <;> cases h <;> exact hread

theorem readDieCommon_some {s : State} {bs : List Byte} {e : Entry} (h : readDieCommon bs = some e) :
    e.table = .die ∧ (bs.length = 27 → e.Allowed s ∧ e.Spelled (0 :: bs)) := by
  unfold readDieCommon at h
  simp only [Option.bind_eq_bind, Option.bind_eq_some_iff, within_eq_some, keepIf_eq_some] at h
  obtain ⟨n, ⟨-, h1, rfl⟩, h2, rfl⟩ := h
  rw [printing_iff] at h2
  refine ⟨rfl, fun hlen => ⟨⟨by simp; omega, fun b hb => h2 b ?_, by simp; omega, fun b hb => h2 b ?_, h1, rfl⟩, .of_eq ?_⟩⟩
  · exact (List.take_subset_take_left bs (by decide)) hb
  · have e : bs.take 26 = bs.take 6 ++ (bs.drop 6).take 20 := List.take_add (l := bs) (i := 6) (j := 20)
    rw [e]
    exact List.mem_append_right _ hb
  · obtain ⟨x, hx⟩ : ∃ x, bs.drop 26 = [x] := List.length_eq_one_iff.1 (by simp; omega)
    have e : bs.take 26 = bs.take 6 ++ (bs.drop 6).take 20 := List.take_add (l := bs) (i := 6) (j := 20)
    have hb : byte (beNat [x]) = x := by simp [beNat, byte]
    simp only [Entry.layout, hx, hb]
    rw [List.cons_append, List.nil_append, List.cons_append, List.cons_append, ← e, ← hx, List.take_append_drop]

theorem readDieHead_some {s : State} {l : Lane} {h : HeadId} {bs : List Byte} {e : Entry} (hr : readDieHead l h bs = some e) :
    e.table = .die ∧ (bs.length = 27 → e.Allowed s ∧ e.Spelled (byte (1 + 2 * laneNat l + headNat h) :: bs)) := by
  unfold readDieHead at hr
  simp only [Option.bind_eq_bind, Option.bind_eq_some_iff, within_eq_some, keepIf_eq_some, Bool.and_eq_true] at hr
  obtain ⟨m, ⟨h1, h2, rfl⟩, n, ⟨-, h3, rfl⟩, ⟨h4, -⟩, rfl⟩ := hr
  rw [printing_iff] at h4
  refine ⟨rfl, fun hlen => ⟨⟨by simp; omega, h4, h1, h2, h3⟩, fun i hi => ?_⟩⟩
  obtain ⟨x, hx⟩ : ∃ x, (bs.drop 16).take 1 = [x] := List.length_eq_one_iff.1 (by simp; omega)
  obtain ⟨a, b, c, habc⟩ : ∃ a b c, (bs.drop 17).take 3 = [a, b, c] := List.length_eq_three.1 (by simp; omega)
  have hb : byte (beNat [x]) = x := by simp [beNat, byte]
  have e20 : bs.take 20 = bs.take 16 ++ ((bs.drop 16).take 1 ++ (bs.drop 17).take 3) := by
    rw [List.take_add (l := bs) (i := 16) (j := 4), List.take_add (l := bs.drop 16) (i := 1) (j := 3), List.drop_drop]
  have hl : bs.take 16 ++ [byte (beNat [x])] ++ beBytes 3 (beNat [a, b, c]) = bs.take 20 := by
    rw [hb, beBytes_beNat_three, e20, hx, habc, List.append_assoc]
  simp only [Entry.layout, hx, habc, List.cons_append, List.nil_append]
  simp only [Entry.spare, List.mem_cons, List.not_mem_nil, or_false, not_or] at hi
  rcases i with _ | i
  · rfl
  · simp only [List.getElem?_cons_succ]
    rw [hl]
    by_cases h20 : i < 20
    · rw [List.getElem?_append_left (by simp; omega), List.getElem?_take_of_lt h20]
    · rw [List.getElem?_eq_none (by omega), List.getElem?_eq_none (by simp; omega)]

theorem readDie_some {s : State} {bs : List Byte} {e : Entry} (h : readDie bs = some e) :
    e.table = .die ∧ (bs.length = 28 → e.Allowed s ∧ e.Spelled bs) := by
  unfold readDie at h
  split at h
  · rename_i item rest
    simp only [List.length_cons, Nat.reduceEqDiff]
    split at h
    · rename_i hitem
      obtain rfl : item = 0#8 := BitVec.eq_of_toNat_eq hitem
      exact readDieCommon_some h
    · rename_i hitem
      obtain rfl : item = 1#8 := BitVec.eq_of_toNat_eq hitem
      exact readDieHead_some h
    · rename_i hitem
      obtain rfl : item = 2#8 := BitVec.eq_of_toNat_eq hitem
      exact readDieHead_some h
    · rename_i hitem
      obtain rfl : item = 3#8 := BitVec.eq_of_toNat_eq hitem
      exact readDieHead_some h
    · rename_i hitem
      obtain rfl : item = 4#8 := BitVec.eq_of_toNat_eq hitem
      exact readDieHead_some h
    · cases h
  · cases h

/-! ### Any entry -/

theorem readInk_some {s : State} {bs : List Byte} {e : Entry} (h : readInk bs = some e) :
    e.table = .ink ∧ e.Allowed s ∧ e.Spelled bs := by
  unfold readInk at h
  split at h
  · split at h
    · exact readProfile_some h
    · split at h
      · exact readChannels_some ‹_› h
      · cases h
  · cases h

/-- Bytes read as an entry of a table give one of that table; of the right size, they are the layout of an
allowed one (R161, R167). -/
theorem readEntry_some {s : State} {t : Table} {bs : List Byte} {e : Entry} (h : s.readEntry t bs = some e) :
    e.table = t ∧ (bs.length + 1 = t.entrySize → e.Allowed s ∧ e.Spelled bs) := by
  cases t with
  | ink => exact ⟨(readInk_some (s := s) h).1, fun _ => (readInk_some h).2⟩
  | signature => exact ⟨(readSignature_some (s := s) h).1, fun _ => (readSignature_some h).2⟩
  | geometry =>
    obtain ⟨h1, h2, h3⟩ := readGeometry_some (s := s) h
    exact ⟨h1, fun hl => ⟨h2, h3 (by simpa [Table.entrySize] using hl)⟩⟩
  | stacker => exact ⟨(readStacker_some h).1, fun _ => (readStacker_some h).2⟩
  | monitor => exact ⟨(readMonitor_some (s := s) h).1, fun _ => (readMonitor_some h).2⟩
  | die =>
    obtain ⟨h1, h2⟩ := readDie_some (s := s) h
    exact ⟨h1, fun hl => h2 (by simpa [Table.entrySize] using hl)⟩

/-- An allowed entry's layout has its table's size (12.4). -/
theorem layout_length {s : State} {e : Entry} (h : e.Allowed s) : e.layout.length + 1 = e.table.entrySize := by
  cases e with
  | route l r ks =>
    obtain ⟨h1, h2, -⟩ := h
    simp [Entry.layout, Entry.table, Table.entrySize]
    omega
  | dieCommon c =>
    obtain ⟨h1, -, h3, -⟩ := h
    simp [Entry.layout, Entry.table, Table.entrySize, h1, h3]
  | dieHead l h d =>
    obtain ⟨h1, -⟩ := h
    simp [Entry.layout, Entry.table, Table.entrySize, beBytes_three, h1]
  | profile | channels | put | drop | geometry | levels | window | monitor =>
    simp [Entry.layout, Entry.table, Table.entrySize, beBytes_two]

/-- An allowed entry is read back from its layout (12.4). -/
theorem readEntry_layout {s : State} {e : Entry} (h : e.Allowed s) : s.readEntry e.table e.layout = some e := by
  cases e with
  | profile => exact readProfile_layout h
  | channels => exact readChannels_layout h
  | put => exact readPut_layout h
  | drop => exact readDrop_layout s _
  | geometry => exact readGeometry_layout h
  | route => exact readRoute_layout h
  | levels => exact readLevels_layout h
  | window => exact readWindow_layout h
  | monitor => exact readMonitor_layout h
  | dieCommon => exact readDieCommon_layout h
  | dieHead => exact readDieHead_layout h

/-- Settles O47: each reader inverts the layout of its entries. -/
theorem stagedEntriesAreReadByTheirLayouts : Obligations.StagedEntriesAreReadByTheirLayouts := by
  refine ⟨fun t => by cases t <;> rfl, fun s e h => ⟨layout_length h, readEntry_layout h⟩, fun s t bs e hl h => ?_⟩
  obtain ⟨h1, h2⟩ := readEntry_some h
  exact ⟨h1, h2 hl⟩

end Sys2Proof.Machine

/-! O55: the Signature Table stays in key order and within its 256 entries. -/

namespace Sys2Proof.Machine

/-- The table holds a key. -/
def holds (t : List SigEntry) (k : SigKey) : Bool := t.any fun d => d.key == k

theorem holds_iff {t : List SigEntry} {k : SigKey} : holds t k = true ↔ ∃ d ∈ t, d.key = k := by simp [holds]

theorem holds_cons (d : SigEntry) (t : List SigEntry) (k : SigKey) : holds (d :: t) k = (d.key == k || holds t k) := rfl

/-- Above a key's place in key order the table does not hold it. -/
theorem holds_above {t : List SigEntry} {k : SigKey} (h : ∀ x ∈ t, k.rank < x.key.rank) : holds t k = false := by
  refine Bool.eq_false_iff.2 fun hh => ?_
  obtain ⟨d, hd, rfl⟩ := holds_iff.1 hh
  exact Nat.lt_irrefl _ (h d hd)

/-- A PUT whose key is absent adds 1 to the capacity sum (R167). -/
def Entry.adds (t : List SigEntry) : Entry → Nat
  | .put d => if holds t d.key then 0 else 1
  | _ => 0

/-- A DROP whose key is present takes 1 from the capacity sum (R167). -/
def Entry.frees (t : List SigEntry) : Entry → Nat
  | .drop k => if holds t k then 1 else 0
  | _ => 0

theorem putsAbsent_cons (t : List SigEntry) (e : Entry) (es : List Entry) :
    putsAbsent t (e :: es) = e.adds t + putsAbsent t es := by
  unfold putsAbsent
  rw [List.filter_cons]
  cases e with
  | put d => cases h : holds t d.key <;> simp [Entry.adds, h, ← holds.eq_1, Nat.add_comm]
  | _ => simp [Entry.adds]

theorem dropsPresent_cons (t : List SigEntry) (e : Entry) (es : List Entry) :
    dropsPresent t (e :: es) = e.frees t + dropsPresent t es := by
  unfold dropsPresent
  rw [List.filter_cons]
  cases e with
  | drop k => cases h : holds t k <;> simp [Entry.frees, h, ← holds.eq_1, Nat.add_comm]
  | _ => simp [Entry.frees]

theorem fits_iff (t : List SigEntry) (es : List Entry) :
    fits t es = true ↔ t.length + putsAbsent t es ≤ 256 + dropsPresent t es := by
  unfold fits
  rw [decide_eq_true_eq]
  rfl

/-- The capacity sum of a list depends only on which of its keys the table holds. -/
theorem sums_congr {t u : List SigEntry} {es : List Entry}
    (h : ∀ e ∈ es, e.adds t = e.adds u ∧ e.frees t = e.frees u) :
    putsAbsent t es = putsAbsent u es ∧ dropsPresent t es = dropsPresent u es := by
  induction es with
  | nil => exact ⟨rfl, rfl⟩
  | cons e es ih =>
    obtain ⟨h1, h2⟩ := ih fun x hx => h x (List.mem_cons_of_mem _ hx)
    obtain ⟨h3, h4⟩ := h e List.mem_cons_self
    rw [putsAbsent_cons, putsAbsent_cons, dropsPresent_cons, dropsPresent_cons, h1, h2, h3, h4]
    exact ⟨rfl, rfl⟩

/-- Entries of other keys count alike when only one key's presence differs. -/
theorem sums_of_other {t u : List SigEntry} {es : List Entry} {k : SigKey} (hk : .signature k ∉ es.map Entry.key)
    (h : ∀ k', k' ≠ k → holds t k' = holds u k') :
    putsAbsent t es = putsAbsent u es ∧ dropsPresent t es = dropsPresent u es := by
  refine sums_congr fun e he => ?_
  have hne : e.key ≠ .signature k := fun hh => hk (hh ▸ List.mem_map_of_mem he)
  cases e with
  | put d => simp [Entry.adds, Entry.frees, h d.key fun hh => hne (by rw [← hh]; rfl)]
  | drop k' => simp [Entry.adds, Entry.frees, h k' fun hh => hne (by rw [← hh]; rfl)]
  | _ => exact ⟨rfl, rfl⟩

/-! ### What a PUT and a DROP leave -/

theorem holds_putSignature {t : List SigEntry} (ht : InKeyOrder t) (d : SigEntry) (k : SigKey) :
    holds (putSignature d t) k = (holds t k || d.key == k) := by
  rw [Bool.eq_iff_iff, Bool.or_eq_true, holds_iff, holds_iff, beq_iff_eq]
  constructor
  · rintro ⟨x, hx, rfl⟩
    rcases (mem_putSignature ht d x).1 hx with rfl | ⟨hx, -⟩
    · exact .inr rfl
    · exact .inl ⟨x, hx, rfl⟩
  · rintro (⟨x, hx, rfl⟩ | rfl)
    · by_cases hk : x.key = d.key
      · exact ⟨d, (mem_putSignature ht d d).2 (.inl rfl), hk.symm⟩
      · exact ⟨x, (mem_putSignature ht d x).2 (.inr ⟨hx, hk⟩), rfl⟩
    · exact ⟨d, (mem_putSignature ht d d).2 (.inl rfl), rfl⟩

theorem holds_dropSignature (t : List SigEntry) (k k' : SigKey) :
    holds (dropSignature k t) k' = (holds t k' && k' != k) := by
  rw [Bool.eq_iff_iff, Bool.and_eq_true, holds_iff, holds_iff, bne_iff_ne]
  simp only [dropSignature, List.mem_filter, Bool.not_eq_true', beq_eq_false_iff_ne]
  constructor
  · rintro ⟨x, ⟨hx, hne⟩, rfl⟩
    exact ⟨⟨x, hx, rfl⟩, hne⟩
  · rintro ⟨⟨x, hx, rfl⟩, hne⟩
    exact ⟨x, ⟨hx, hne⟩, rfl⟩

/-- A PUT adds an entry where its key was absent (R93). -/
theorem putSignature_length {t : List SigEntry} (ht : InKeyOrder t) (d : SigEntry) :
    (putSignature d t).length = t.length + (Entry.put d).adds t := by
  induction t with
  | nil => rfl
  | cons a t ih =>
    obtain ⟨h1, h2⟩ := List.pairwise_cons.1 ht
    have ih := ih h2
    simp only [Entry.adds, holds_cons] at ih ⊢
    unfold putSignature
    split
    · rename_i hk
      simp [hk]
    · rename_i hk
      have hne : (a.key == d.key) = false := beq_eq_false_iff_ne.2 (Ne.symm hk)
      simp only [hne, Bool.false_or]
      split
      · rename_i hlt
        simp [holds_above fun x hx => Nat.lt_trans hlt (h1 x hx)]
      · simp only [List.length_cons, ih]
        omega

/-- A DROP frees an entry where its key was present (R93). -/
theorem dropSignature_length {t : List SigEntry} (ht : InKeyOrder t) (k : SigKey) :
    (dropSignature k t).length + (Entry.drop k).frees t = t.length := by
  induction t with
  | nil => rfl
  | cons a t ih =>
    obtain ⟨h1, h2⟩ := List.pairwise_cons.1 ht
    have ih := ih h2
    simp only [Entry.frees, holds_cons, dropSignature, List.filter_cons] at ih ⊢
    by_cases hk : a.key = k
    · subst hk
      rw [holds_above h1] at ih
      simpa using ih
    · have hne : (a.key == k) = false := beq_eq_false_iff_ne.2 hk
      simp only [hne, Bool.false_or]
      simp only [Bool.not_false, if_true, List.length_cons]
      omega

/-! ### The tables with an entry entered -/

/-- A Signature Table in order and within its size, with entries that wait to be applied to it (R92, R167,
R168). -/
structure SigSound (t : List SigEntry) (es : List Entry) : Prop where
  ordered : InKeyOrder t
  size : t.length ≤ 256
  dropsFirst : es.Pairwise fun x y => y.isDrop = true → x.isDrop = true
  keys : (es.map Entry.key).Nodup
  room : fits t es = true

/-- The Signature Table with an entry entered (R93). -/
def Entry.enterSignature (t : List SigEntry) : Entry → List SigEntry
  | .put d => putSignature d t
  | .drop k => dropSignature k t
  | _ => t

/-- Without DROPs nothing is freed. -/
theorem dropsPresent_eq_zero {t : List SigEntry} {es : List Entry} (h : ∀ e ∈ es, e.isDrop = false) :
    dropsPresent t es = 0 := by
  induction es with
  | nil => rfl
  | cons e es ih =>
    rw [dropsPresent_cons, ih fun x hx => h x (List.mem_cons_of_mem _ hx)]
    have he := h e List.mem_cons_self
    cases e <;> first | rfl | cases he

/-- The next entry entered keeps the table sound (R93, R168). -/
theorem SigSound.enter {t : List SigEntry} {e : Entry} {es : List Entry} (h : SigSound t (e :: es)) :
    SigSound (e.enterSignature t) (e :: es) := by
  obtain ⟨ho, hs, hd, hk, hr⟩ := h
  have hroom := (fits_iff _ _).1 hr
  rw [putsAbsent_cons, dropsPresent_cons] at hroom
  have hkey : e.key ∉ es.map Entry.key := (List.nodup_cons.1 hk).1
  cases e with
  | put d =>
    have hl := putSignature_length ho d
    have hin : holds (putSignature d t) d.key = true := by simp [holds_putSignature ho]
    obtain ⟨e1, e2⟩ := sums_of_other (t := putSignature d t) (u := t) (k := d.key) hkey fun k' hne => by
      rw [holds_putSignature ho, beq_eq_false_iff_ne.2 (Ne.symm hne), Bool.or_false]
    have hz : dropsPresent t es = 0 := dropsPresent_eq_zero fun x hx => by
      have := (List.pairwise_cons.1 hd).1 x hx
      simpa [Entry.isDrop] using this
    have h0 : (Entry.put d).frees t = 0 := rfl
    refine ⟨putSignature_order ho d, ?_, hd, hk, (fits_iff _ _).2 ?_⟩
    · show (putSignature d t).length ≤ 256
      omega
    · rw [putsAbsent_cons, dropsPresent_cons]
      show (putSignature d t).length + ((if holds (putSignature d t) d.key then 0 else 1) + putsAbsent (putSignature d t) es)
        ≤ 256 + (0 + dropsPresent (putSignature d t) es)
      rw [hin, e1, e2]
      simp only [if_true]
      omega
  | drop k =>
    have hl := dropSignature_length ho k
    have hout : holds (dropSignature k t) k = false := by simp [holds_dropSignature]
    obtain ⟨e1, e2⟩ := sums_of_other (t := dropSignature k t) (u := t) (k := k) hkey fun k' hne => by
      rw [holds_dropSignature, bne_iff_ne.2 hne, Bool.and_true]
    have h0 : (Entry.drop k).adds t = 0 := rfl
    refine ⟨dropSignature_order ho k, ?_, hd, hk, (fits_iff _ _).2 ?_⟩
    · show (dropSignature k t).length ≤ 256
      omega
    · rw [putsAbsent_cons, dropsPresent_cons]
      show (dropSignature k t).length + (0 + putsAbsent (dropSignature k t) es)
        ≤ 256 + ((if holds (dropSignature k t) k then 1 else 0) + dropsPresent (dropSignature k t) es)
      rw [hout, e1, e2]
      simp only [Bool.false_eq_true, if_false]
      omega
  | _ => exact ⟨ho, hs, hd, hk, hr⟩

/-- Past an entry that has been entered the rest still waits soundly (R168). -/
theorem SigSound.past {t : List SigEntry} {e : Entry} {es : List Entry} (h : SigSound t (e :: es)) (he : e.Entered t) :
    SigSound t es := by
  obtain ⟨ho, hs, hd, hk, hr⟩ := h
  have hroom := (fits_iff _ _).1 hr
  rw [putsAbsent_cons, dropsPresent_cons] at hroom
  have hz : e.frees t = 0 := by
    cases e with
    | drop k =>
      have hout : holds t k = false := Bool.eq_false_iff.2 fun hh => by
        obtain ⟨d, hd, hdk⟩ := holds_iff.1 hh
        exact he d hd hdk
      simp [Entry.frees, hout]
    | _ => rfl
  exact ⟨ho, hs, (List.pairwise_cons.1 hd).2, (List.nodup_cons.1 hk).2, (fits_iff _ _).2 (by omega)⟩

/-- The order of application is a rearrangement with every DROP first (R168). -/
theorem applicationOrder_perm (es : List Entry) : (applicationOrder es).Perm es := List.filter_append_perm _ _

theorem sums_perm {t : List SigEntry} {es fs : List Entry} (h : es.Perm fs) :
    putsAbsent t es = putsAbsent t fs ∧ dropsPresent t es = dropsPresent t fs :=
  ⟨(h.filter _).length_eq, (h.filter _).length_eq⟩

theorem applicationOrder_dropsFirst (es : List Entry) :
    (applicationOrder es).Pairwise fun x y => y.isDrop = true → x.isDrop = true := by
  refine List.pairwise_append.2 ⟨?_, ?_, ?_⟩
  · exact List.pairwise_of_forall_mem_list fun x hx y _ _ => (List.mem_filter.1 hx).2
  · refine List.pairwise_of_forall_mem_list fun x _ y hy hd => ?_
    have := (List.mem_filter.1 hy).2
    rw [hd] at this
    cases this
  · exact fun x hx y _ _ => (List.mem_filter.1 hx).2

/-- Entries of another table leave the capacity sum at 0. -/
theorem sums_of_noSignature {t : List SigEntry} {es : List Entry} (h : ∀ e ∈ es, e.onSignature = false) :
    putsAbsent t es = 0 ∧ dropsPresent t es = 0 := by
  have hz : ∀ e ∈ es, e.adds t = 0 ∧ e.frees t = 0 := fun e he => by
    have := h e he
    cases e <;> first | exact ⟨rfl, rfl⟩ | cases this
  induction es with
  | nil => exact ⟨rfl, rfl⟩
  | cons e es ih =>
    obtain ⟨h1, h2⟩ := ih (fun x hx => h x (List.mem_cons_of_mem _ hx)) fun x hx => hz x (List.mem_cons_of_mem _ hx)
    obtain ⟨h3, h4⟩ := hz e List.mem_cons_self
    rw [putsAbsent_cons, dropsPresent_cons, h1, h2, h3, h4]
    exact ⟨rfl, rfl⟩

theorem onSignature_eq_false_of_table {e : Entry} (h : e.table ≠ .signature) : e.onSignature = false := by
  cases e <;> first | rfl | exact absurd rfl h

theorem enterEntry_signature (s : State) (e : Entry) :
    (s.enterEntry e).store.tables.signature = e.enterSignature s.store.tables.signature := by
  cases e <;> rfl

theorem enterSignature_eq_of_noSignature {e : Entry} (h : e.onSignature = false) (t : List SigEntry) :
    e.enterSignature t = t := by
  cases e <;> first | rfl | cases h

theorem enterEntry_phase (s : State) (e : Entry) : (s.enterEntry e).store.phase = s.store.phase := by
  cases e <;> rfl

/-- What the checks of a commit have found once they pass (R167). -/
theorem checkCommit_passes {s : State} {w : Staged} {es : List Entry} (h : s.checkCommit w = .passes es) :
    w.received.length = w.count ∧ w.received.map (s.readEntry w.table) = es.map some ∧ (es.map Entry.key).Nodup
      ∧ (w.table = .signature → fits s.store.tables.signature es = true) ∧ s.commitInterlock w es = true := by
  unfold State.checkCommit at h
  split at h
  · cases h
  · rename_i h1
    split at h
    · cases h
    · rename_i fs h2
      split at h
      · cases h
      · rename_i h3
        split at h
        · cases h
        · rename_i h4
          split at h
          · cases h
          · rename_i h5
            cases h
            refine ⟨by simpa using h1, (mapM_eq_some _ _ _).1 h2, by simpa using h3, fun ht => ?_, by simpa using h5⟩
            simpa [ht] using h4

/-- A committed entry is one of the write's table (R161, R167). -/
theorem table_of_committed {s : State} {w : Staged} {es : List Entry}
    (h : w.received.map (s.readEntry w.table) = es.map some) {e : Entry} (he : e ∈ es) : e.table = w.table := by
  have hm : some e ∈ w.received.map (s.readEntry w.table) := h ▸ List.mem_map_of_mem he
  obtain ⟨bs, -, hb⟩ := List.mem_map.1 hm
  exact (readEntry_some hb).1

/-- The store is sound where its table is, with the outer write's entries, and a nested write leaves the
table alone. -/
theorem signatureSound_iff (k : Store) :
    k.SignatureSound ↔ SigSound k.tables.signature k.phase.outerTodo
      ∧ (∀ e ∈ k.phase.nestedTodo, e.onSignature = false) ∧ k.phase.nestedTable ≠ some .signature :=
  ⟨fun ⟨h1, h2, h3, h4, h5, h6, h7⟩ => ⟨⟨h1, h2, h3, h4, h5⟩, h6, h7⟩,
    fun ⟨⟨h1, h2, h3, h4, h5⟩, h6, h7⟩ => ⟨h1, h2, h3, h4, h5, h6, h7⟩⟩

theorem StoreMove.signatureSound {s t : State} (h : StoreMove s t) (hs : s.store.SignatureSound) :
    t.store.SignatureSound := by
  rw [signatureSound_iff] at hs ⊢
  obtain ⟨h1, h2, h3⟩ := hs
  cases h with
  | @enter e h =>
    rw [enterEntry_phase, enterEntry_signature]
    cases hp : s.store.phase <;> rw [hp] at h h1 h2 h3 <;> try cases h
    · rename_i p mark
      obtain ⟨rest, ht⟩ := List.head?_eq_some_iff.1 h
      refine ⟨?_, h2, h3⟩
      simp only [Phase.outerTodo, ht] at h1 ⊢
      exact h1.enter
    · rename_i p q
      obtain ⟨rest, ht⟩ := List.head?_eq_some_iff.1 h
      rw [enterSignature_eq_of_noSignature (h2 e (by simp [Phase.nestedTodo, ht]))]
      exact ⟨h1, h2, h3⟩
  | past h he =>
    rcases pastEntry_cases s h with ⟨p, mark, rest, hp, ht, -, e⟩ | ⟨p, mark, hp, ht, e⟩ | ⟨p, q, rest, hp, ht, -, e⟩ | ⟨p, q, hp, ht, e⟩ <;>
      rw [hp] at h1 h2 h3 <;> rw [e]
    · simp only [Phase.outerTodo, ht] at h1
      cases mark <;> exact ⟨h1.past he, nofun, nofun⟩
    · simp only [Phase.outerTodo, ht] at h1
      simpa [State.setPhase, Phase.outerTodo, Phase.nestedTodo, Phase.nestedTable] using h1.past he
    · refine ⟨h1, fun x hx => h2 x ?_, nofun⟩
      simp only [Phase.nestedTodo, ht]
      exact List.mem_cons_of_mem _ hx
    · simpa [State.setPhase, Phase.outerTodo, Phase.nestedTodo, Phase.nestedTable] using h1
  | phase p commits outer nested table bounded =>
    exact ⟨outer ▸ h1, nested ▸ h2, table h3⟩
  | @commit c w es h hw he =>
    obtain ⟨-, hread, hkeys, hfits, -⟩ := checkCommit_passes he
    obtain ⟨hp1, hp2⟩ := sums_perm (t := s.store.tables.signature) (applicationOrder_perm es)
    cases hp : s.store.phase <;> rw [hp] at hw h1 h2 h3 <;> cases hw
    · simp only [State.beginProgramming, State.setPhase, hp, Phase.committed]
      refine ⟨⟨h1.ordered, h1.size, applicationOrder_dropsFirst es, ?_, ?_⟩, nofun, nofun⟩
      · exact ((applicationOrder_perm es).map _).nodup_iff.2 hkeys
      · rw [fits_iff]
        show _ + putsAbsent _ (applicationOrder es) ≤ 256 + dropsPresent _ (applicationOrder es)
        rw [hp1, hp2]
        by_cases ht : w.table = .signature
        · exact (fits_iff _ _).1 (hfits ht)
        · obtain ⟨e1, e2⟩ := sums_of_noSignature (t := s.store.tables.signature) (es := es) fun e he =>
            onSignature_eq_false_of_table (table_of_committed hread he ▸ ht)
          rw [e1, e2]
          exact h1.size
    · simp only [State.beginProgramming, State.setPhase, hp, Phase.committed]
      refine ⟨h1, fun e he => onSignature_eq_false_of_table ?_, nofun⟩
      rw [table_of_committed hread ((applicationOrder_perm es).mem_iff.1 he)]
      exact fun ht => h3 (congrArg some ht)

/-- A store with an empty waiting list is sound where its table is. -/
theorem Store.SignatureSound.of_ready {k : Store} (hp : k.phase = .ready) (ho : InKeyOrder k.tables.signature)
    (hs : k.tables.signature.length ≤ 256) : k.SignatureSound := by
  rw [signatureSound_iff, hp]
  refine ⟨⟨ho, hs, .nil, .nil, ?_⟩, nofun, nofun⟩
  rw [fits_iff]
  simpa [putsAbsent, dropsPresent, Phase.outerTodo] using hs

theorem Move.signatureSound {i : Instr} {a b : Option Lane} {s t : State} (h : Move i a s b t)
    (hs : s.store.SignatureSound) : t.store.SignatureSound := by
  cases h with
  | outer h =>
    have hi := h.inner
    rw [signatureSound_iff] at hs ⊢
    rw [hi.phase, hi.tables]
    exact hs
  | store h => exact h.signatureSound hs
  | lane h =>
    rw [h.within]
    exact hs
  | reset hi =>
    have hr := resetBlocks_reset s
    exact .of_ready hr.phase (hr.tables ▸ hs.ordered) (hr.tables ▸ hs.size)
  | power hi => exact .of_ready rfl .nil (Nat.zero_le _)

/-- Settles O55: what waits to be applied keeps the table sound, entry by entry. -/
theorem signatureTableStaysSound : Obligations.SignatureTableStaysSound :=
  fun _ _ hs h => step_keeps (P := fun s => s.store.SignatureSound) (fun _ _ hs => hs) (fun _ _ _ _ _ m hs => m.signatureSound hs) h hs

end Sys2Proof.Machine

/-! Captures: a step captures one record, as its first move, or none. -/

namespace Sys2Proof.Machine

/-- A lane as a captured leading edge leaves it (R51). -/
def LaneS.captureAtEdge (x : LaneS) : LaneS := { x with eyeCovered := true }.capture

theorem leadingEdge_splits {l : Lane} {s t : State} (h : execLeadingEdge l s = .next t) :
    Moves (.beltStep l false) none s none t
      ∨ (s.lane l).canCapture = true ∧ (s.lane l).eye = .armed
        ∧ Moves (.beltStep l false) (some l) (s.modLane l LaneS.captureAtEdge) none t := by
  have covered : Moves (.beltStep l false) none s none (s.modLane l fun x => { x with eyeCovered := true }) :=
    alike_moves (fun x => { x with eyeCovered := true }) (LaneS.alike_eyeCovered _ _)
  unfold execLeadingEdge at h
  split at h
  · cases h
    exact .inl .refl
  · cases h
    split
    · rename_i he
      have hne : (s.lane l).eye ≠ .idle := fun hh => by rw [hh] at he; cases he
      unfold State.edgeArmed
      split
      · rename_i hc
        rw [State.modLane_lane] at hc
        refine .inr ⟨hc, he, ?_⟩
        rw [State.modLane_modLane]
        exact updateRate_moves ⟨rfl, rfl⟩ (.inr rfl)
      · exact .inl (covered.trans (pass_moves true (by rw [State.modLane_lane]; exact hne)))
    · rename_i he
      exact .inl (covered.trans (edgeInGap_moves (by rw [State.modLane_lane]; exact he)))
    · exact .inl covered
    · exact .inl covered
    · exact .inl covered

/-- A step is a chain of moves that captures nothing, or captures a record first and nothing after. -/
theorem exec_splits {i : Instr} {s t : State} (h : exec i s = .next t) :
    (∃ j, (∀ l, j ≠ .leadingEdge l) ∧ Moves j none s none t)
      ∨ ∃ l j, (∀ m, j ≠ .leadingEdge m) ∧ (s.lane l).canCapture = true ∧ (s.lane l).eye = .armed
        ∧ Moves j (some l) (s.modLane l LaneS.captureAtEdge) none t := by
  by_cases hi : ∃ l, i = .leadingEdge l
  · obtain ⟨l, rfl⟩ := hi
    rcases leadingEdge_splits h with hm | ⟨hc, he, hm⟩
    · exact .inl ⟨.beltStep l false, fun _ => nofun, hm⟩
    · exact .inr ⟨l, .beltStep l false, fun _ => nofun, hc, he, hm⟩
  · obtain ⟨u, hu, hm⟩ := exec_moves i s
    rw [h] at hu
    cases hu
    exact .inl ⟨i, fun l hl => hi ⟨l, hl⟩, hm⟩

/-- What every move but a capture keeps, and a capture of the state a step begins in, the step keeps. -/
theorem step_keeps_capture {P Q : State → Prop} (hp : ∀ s rest, P s → P { s with pending := rest })
    (hq : ∀ s rest, Q s → Q { s with pending := rest })
    (hm : ∀ i a s b t, (∀ l, i ≠ .leadingEdge l) → Move i a s b t → P s → P t)
    (hc : ∀ s l, Q s → P s → (s.lane l).canCapture = true → (s.lane l).eye = .armed → P (s.modLane l LaneS.captureAtEdge))
    {s t : State} (h : step s = .next t) (hQ : Q s) (hs : P s) : P t := by
  rcases step_moves h with rfl | ⟨i, rest, -, he, -⟩
  · exact hs
  · have hs' := hp s rest hs
    have keeps {j : Instr} {a b : Option Lane} {u v : State} (hj : ∀ l, j ≠ .leadingEdge l) (hmv : Moves j a u b v)
        (hu : P u) : P v := hmv.keeps (P := fun _ => P) (fun _ _ _ _ m => hm j _ _ _ _ hj m) hu
    rcases exec_splits he with ⟨j, hj, hmv⟩ | ⟨l, j, hj, hcap, harm, hmv⟩
    · exact keeps hj hmv hs'
    · exact keeps hj hmv (hc _ l (hq s rest hQ) hs' hcap harm)

end Sys2Proof.Machine

/-! O58: the leads of a list ascend, and each lane state has what holds in it. -/

namespace Sys2Proof.Machine

/-! ### Leads -/

theorem leadsAscend_iff (x : LaneS) :
    x.LeadsAscend ↔ (x.list.map Piece.lead).Pairwise fun p q => beyond q p = true := by
  rw [List.pairwise_map]
  rfl

theorem kept_leads {ps qs : List Piece} (h : List.Forall₂ Piece.Kept ps qs) : qs.map Piece.lead = ps.map Piece.lead := by
  induction h with
  | nil => rfl
  | cons h1 _ ih => simp [h1.lead, ih]

theorem modTagged_map {α : Type} {f : Piece → α} {tag : Tag} {g : Piece → Piece} (hg : ∀ p : Piece, f (g p) = f p)
    (ps : List Piece) : (modTagged tag g ps).map f = ps.map f := by
  unfold modTagged
  rw [List.map_map]
  refine List.map_congr_left fun p _ => ?_
  simp only [Function.comp_apply]
  split
  · exact hg p
  · rfl

theorem LaneS.LeadsAscend.of_leads {x y : LaneS} (h : x.LeadsAscend) (e : y.list.map Piece.lead = x.list.map Piece.lead) :
    y.LeadsAscend := by
  rw [leadsAscend_iff] at *
  rw [e]
  exact h

theorem LaneS.LeadsAscend.of_sublist {x y : LaneS} (h : x.LeadsAscend) (e : y.list.Sublist x.list) : y.LeadsAscend :=
  List.Pairwise.sublist e h

/-- A change that captures nothing keeps the leads ascending. -/
theorem LaneChange.leadsAscend {i : Instr} {s : State} {l : Lane} {a b : Option Lane} {y : LaneS}
    (h : LaneChange i s l a b y) (hi : i ≠ .leadingEdge l) (hx : (s.lane l).LeadsAscend) : y.LeadsAscend := by
  cases h with
  | rate | file | leaveJam | drain | stop | start | resume | fire | suppress | endStrike | clearCounts | judge => exact hx
  | capture h => exact absurd h hi
  | jam hi h hy => exact hx.of_leads (kept_leads hy.list)
  | retire | glitch =>
    obtain ⟨c, ks, w, e, -⟩ := LaneS.handOff_eq _ _ _
    rw [e]
    exact hx.of_sublist List.filter_sublist
  | clear =>
    refine hx.of_sublist ?_
    rw [LaneS.handOffs_list _ _ _ fun q hq => ⟨q, hq, rfl⟩]
    exact List.nil_sublist _
  | decide hi hp hd hk hy hb =>
    obtain ⟨g, hg, e⟩ := hy.list
    refine hx.of_leads ?_
    rw [e, modTagged_map fun p => (hg p).1.lead, kept_leads hk.list]
    exact modTagged_map (by intro; rfl) _
  | passPocket hp => exact hx.of_leads (modTagged_map (by intro; rfl) _)
  | choose hp hk hc => exact hx.of_leads ((modTagged_map (by intro; rfl) _).trans (modTagged_map (by intro; rfl) _))

theorem Move.leadsAscend {i : Instr} {a b : Option Lane} {s t : State} (hi : ∀ l, i ≠ .leadingEdge l) (h : Move i a s b t)
    (hs : ∀ l, (s.lane l).LeadsAscend) (m : Lane) : (t.lane m).LeadsAscend := by
  cases h with
  | outer h => rw [h.lane]; exact hs m
  | store h => rw [h.lane]; exact hs m
  | lane h =>
    rcases h.change with ⟨-, h⟩ | ⟨l, hl, ho⟩
    · exact (hs m).of_leads (kept_leads (h.lanes m).list)
    · by_cases hm : m = l
      · subst hm; exact hl.leadsAscend (hi m) (hs m)
      · exact (hs m).of_leads (kept_leads (ho m hm).list)
  | reset =>
    rw [resetBlocks_lane, leadsAscend_iff]
    obtain ⟨-, e, -⟩ := (s.lane m).resetOwn_values
    rw [e]
    exact .nil
  | power => cases m <;> exact .nil

/-- A position beyond the newest of near leads is beyond each older one, too (R37, R40). -/
theorem beyond_of_near {belt n p : Pos} (h1 : beyond belt n = true) (h2 : beyond n p = true)
    (h3 : (signedDistance belt n).natAbs < 4194304) (h4 : (signedDistance belt p).natAbs < 4194304) :
    beyond belt p = true := by
  unfold signedDistance halfRange at h3 h4
  unfold beyond reached halfRange at *
  simp only [Bool.and_eq_true, decide_eq_true_eq, bne_iff_ne] at *
  have e1 : belt ≠ p ↔ (belt - p).toNat ≠ 0 := by bv_omega
  have e2 : n ≠ p ↔ (n - p).toNat ≠ 0 := by bv_omega
  have e3 : belt ≠ n ↔ (belt - n).toNat ≠ 0 := by bv_omega
  have e4 : (belt - p).toNat = ((belt - n).toNat + (n - p).toNat) % 16777216 := by bv_omega
  rw [e1] at *
  rw [e2] at h2
  rw [e3] at h1
  generalize (belt - n).toNat = x at *
  generalize (n - p).toNat = y at *
  generalize (belt - p).toNat = z at *
  split at h3 <;> split at h4 <;> omega

/-- A captured record's lead lies beyond all the others (R40, R51). -/
theorem LaneS.LeadsAscend.capture {x : LaneS} (h : x.LeadsAscend) (hn : x.LeadsNear) (hc : x.canCapture = true) :
    x.captureAtEdge.LeadsAscend := by
  unfold LaneS.canCapture at hc
  simp only [Bool.and_eq_true, beq_iff_eq, decide_eq_true_eq] at hc
  obtain ⟨⟨hrun, -⟩, hc⟩ := hc
  refine List.pairwise_append.2 ⟨h, List.pairwise_singleton _ _, fun p hp q hq => ?_⟩
  obtain rfl : q = captured x.nextTag x.belt := by simpa using hq
  show beyond x.belt p.lead = true
  have hne : x.list ≠ [] := List.ne_nil_of_mem hp
  rw [List.getLast?_eq_some_getLast hne] at hc
  have hcat := List.dropLast_append_getLast hne
  rw [← hcat] at hp
  rcases List.mem_append.1 hp with hp | hp
  · have hlast : beyond (x.list.getLast hne).lead p.lead = true := by
      have h' : (x.list.dropLast ++ [x.list.getLast hne]).Pairwise fun p q => beyond q.lead p.lead = true := by
        rw [hcat]
        exact h
      exact (List.pairwise_append.1 h').2.2 p hp _ (List.mem_singleton_self _)
    exact beyond_of_near hc hlast (hn hrun _ (List.getLast_mem hne)) (hn hrun p (List.dropLast_subset _ hp))
  · rw [List.mem_singleton.1 hp]
    exact hc

/-! ### What holds in each lane state -/

/-- The rate a lane is to have (R159). -/
theorem wantedRate_eq (x : LaneS) :
    x.wantedRate
      = if x.state = .running then
          if x.monitors.late.declared = true ∨ x.monitors.shingle.declared = true ∨ 20 ≤ x.list.length then .slow else .full
        else .hold := by
  unfold LaneS.wantedRate
  by_cases h : x.state = .running
  · by_cases h20 : 20 ≤ x.list.length <;> cases h1 : x.monitors.late.declared <;>
      cases h2 : x.monitors.shingle.declared <;> simp [h, h20, Config.slowListSize]
  · simp [h]

/-- The feed rate is the one worked out (R159). -/
def LaneS.Rated (x : LaneS) : Prop := x.feedRate = x.wantedRate

/-- What holds in each lane state, the feed rate aside (R44, R45, R49, R154). -/
structure LaneS.RestHolds (x : LaneS) : Prop where
  stopped : x.state = .stopped → x.list = []
  resting : x.active = false → x.eye = .idle ∧ x.window = none ∧ x.forwardMark = none
  moving : x.active = true → x.eye ≠ .idle ∧ x.window ≠ none ∧ x.forwardMark ≠ none

theorem stateHolds_iff (x : LaneS) : x.StateHolds ↔ x.Rated ∧ x.RestHolds := by
  unfold LaneS.Rated
  rw [wantedRate_eq]
  exact ⟨fun ⟨h1, h2, h3, h4⟩ => ⟨h1, h2, h3, h4⟩, fun ⟨h1, h2, h3, h4⟩ => ⟨h1, h2, h3, h4⟩⟩

theorem LaneS.Rated.of_same {x y : LaneS} (h : x.Rated) (hs : y.state = x.state) (hm : y.monitors = x.monitors)
    (hl : y.list.length = x.list.length) (hf : y.feedRate = x.feedRate) : y.Rated := by
  unfold LaneS.Rated at *
  rw [wantedRate_eq] at *
  rw [hs, hm, hl, hf]
  exact h

/-- Outside RUNNING the rate is HOLD (R159). -/
theorem LaneS.Rated.of_hold {y : LaneS} (hs : y.state ≠ .running) (hf : y.feedRate = .hold) : y.Rated := by
  unfold LaneS.Rated
  rw [wantedRate_eq, if_neg hs, hf]

theorem LaneS.Rated.hold {x : LaneS} (h : x.Rated) (hs : x.state ≠ .running) : x.feedRate = .hold := by
  unfold LaneS.Rated at h
  rw [h, wantedRate_eq, if_neg hs]

theorem LaneS.RestHolds.of_same {x y : LaneS} (h : x.RestHolds) (hs : y.state = x.state) (hl : x.list = [] → y.list = [])
    (he : y.eye = .idle ↔ x.eye = .idle) (hw : y.window = none ↔ x.window = none)
    (hf : y.forwardMark = none ↔ x.forwardMark = none) : y.RestHolds := by
  have ha : y.active = x.active := by unfold LaneS.active; rw [hs]
  obtain ⟨h1, h2, h3⟩ := h
  refine ⟨fun hy => hl (h1 (hs ▸ hy)), fun hy => ?_, fun hy => ?_⟩
  · obtain ⟨e1, e2, e3⟩ := h2 (ha ▸ hy)
    exact ⟨he.2 e1, hw.2 e2, hf.2 e3⟩
  · obtain ⟨e1, e2, e3⟩ := h3 (ha ▸ hy)
    exact ⟨fun e => e1 (he.1 e), fun e => e2 (hw.1 e), fun e => e3 (hf.1 e)⟩

theorem LaneS.Kept.rated {x y : LaneS} (h : x.Kept y) (hx : x.Rated) : y.Rated :=
  hx.of_same h.state h.monitors h.list.length_eq.symm h.feedRate

theorem LaneS.Kept.restHolds {x y : LaneS} (h : x.Kept y) (hx : x.RestHolds) : y.RestHolds :=
  hx.of_same h.state (fun e => by have := h.list; rw [e] at this; exact List.forall₂_nil_left_iff.1 this) h.idle h.window
    h.forwardMark

theorem modTagged_nil {ps : List Piece} (tag : Tag) (g : Piece → Piece) (h : ps = []) : modTagged tag g ps = [] := by
  rw [h]
  rfl

/-- A lane that rests holds what a resting lane does. -/
theorem LaneS.RestHolds.of_resting {y : LaneS} (hs : y.state = .stopped ∨ y.state = .jammed)
    (hl : y.state = .stopped → y.list = []) (h : y.eye = .idle ∧ y.window = none ∧ y.forwardMark = none) : y.RestHolds := by
  have ha : y.active = false := by rcases hs with e | e <;> simp [LaneS.active, e]
  exact ⟨hl, fun _ => h, fun hy => absurd hy (by simp [ha])⟩

/-- A lane that moves holds what a moving lane does. -/
theorem LaneS.RestHolds.of_moving {y : LaneS} (hs : y.active = true)
    (h : y.eye ≠ .idle ∧ y.window ≠ none ∧ y.forwardMark ≠ none) : y.RestHolds :=
  ⟨fun e => absurd hs (by simp [LaneS.active, e]), fun hy => absurd hy (by simp [hs]), fun _ => h⟩

theorem eyeAtStart_ne_idle (c : Bool) (p : Pos) : eyeAtStart c p ≠ .idle := by
  unfold eyeAtStart
  split <;> nofun

theorem LaneChange.restHolds {i : Instr} {s : State} {l : Lane} {a b : Option Lane} {y : LaneS}
    (h : LaneChange i s l a b y) (hx : (s.lane l).RestHolds) : y.RestHolds := by
  cases h with
  | rate | file | fire | suppress | endStrike | clearCounts | judge => exact hx.of_same rfl id .rfl .rfl .rfl
  | passPocket => exact hx.of_same rfl (modTagged_nil _ _) .rfl .rfl .rfl
  | choose => exact hx.of_same rfl (fun e => modTagged_nil _ _ (modTagged_nil _ _ e)) .rfl .rfl .rfl
  | capture hi h =>
    have hrun : (s.lane l).state = .running := by
      unfold LaneS.canCapture at h
      simp only [Bool.and_eq_true, beq_iff_eq] at h
      exact h.1.1
    have ha : (s.lane l).active = true := by simp [LaneS.active, hrun]
    obtain ⟨-, h2, h3⟩ := hx.moving ha
    exact .of_moving ha ⟨nofun, h2, h3⟩
  | jam hi h hy =>
    exact .of_resting (.inr hy.state) (fun e => by rw [hy.state] at e; cases e)
      ⟨hy.idle.2 rfl, hy.window.2 rfl, hy.forwardMark.2 rfl⟩
  | @retire tag p hi hp hd hk =>
    obtain ⟨c, ks, w, e, hw⟩ := (s.lane l).handOff_eq .ordinary p
    rw [e]
    exact hx.of_same rfl (fun e => by simp [LaneS.drop, e]) .rfl hw .rfl
  | @glitch p st hi hp he hd =>
    have ha : (s.lane l).active = true := by
      by_contra hn
      obtain ⟨e, -⟩ := hx.resting (by simpa using hn)
      rw [he] at e
      cases e
    obtain ⟨-, h2, h3⟩ := hx.moving ha
    obtain ⟨c, ks, w, e, hw⟩ := LaneS.handOff_eq .glitch p { s.lane l with eye := .armed }
    rw [e]
    exact .of_moving ha ⟨nofun, fun hh => h2 (hw.1 hh), h3⟩
  | clear hi h =>
    obtain ⟨e1, e2, e3, -, -, -, -, -, e4⟩ := LaneS.handOffs_keeps .jamClear (s.lane l).list (s.lane l)
    exact hx.of_same e1 (fun _ => LaneS.handOffs_list _ _ _ fun q hq => ⟨q, hq, rfl⟩) (by rw [e2]) e4 (by rw [e3])
  | leaveJam hi h hl => exact .of_resting (.inl rfl) (fun _ => hl) (hx.resting (by simp [LaneS.active, h]))
  | drain hi h hl => exact .of_resting (.inl rfl) (fun _ => hl) ⟨rfl, rfl, rfl⟩
  | stop hi h => exact .of_moving (by rfl) (hx.moving (by simp [LaneS.active, h]))
  | start hi h => exact .of_moving (by rfl) ⟨eyeAtStart_ne_idle _ _, nofun, nofun⟩
  | resume hi h => exact .of_moving (by rfl) (hx.moving (by simp [LaneS.active, h]))
  | decide hi hp hd hk hy hb =>
    obtain ⟨g, -, e⟩ := hy.list
    have hx' := hk.restHolds (x := { s.lane l with list := _ }) (hx.of_same rfl (modTagged_nil _ _) .rfl .rfl .rfl)
    exact hx'.of_same hy.state (fun hh => by rw [e]; exact modTagged_nil _ _ hh) (by rw [hy.eye]) hy.window
      (by rw [hy.forwardMark])

/-- The lane whose rate waits aside, a changed lane has its rate. -/
theorem LaneChange.rated {i : Instr} {s : State} {l : Lane} {a b : Option Lane} {y : LaneS}
    (h : LaneChange i s l a b y) (hx : a ≠ some l → (s.lane l).Rated) (hb : b ≠ some l) : y.Rated := by
  cases h with
  | rate =>
    show (s.lane l).wantedRate = (s.lane l).rated.wantedRate
    rfl
  | capture | retire | glitch | stop | start | resume | judge => exact absurd rfl hb
  | file | fire | suppress | endStrike | clearCounts => exact (hx hb).of_same rfl rfl rfl rfl
  | passPocket => exact (hx hb).of_same rfl rfl (modTagged_length _ _ _) rfl
  | choose => exact (hx hb).of_same rfl rfl ((modTagged_length _ _ _).trans (modTagged_length _ _ _)) rfl
  | jam hi h hy => exact .of_hold (by rw [hy.state]; nofun) (by rw [hy.feedRate]; rfl)
  | clear hi h =>
    obtain ⟨e1, -, -, e2, -⟩ := LaneS.handOffs_keeps .jamClear (s.lane l).list (s.lane l)
    have hn : (s.lane l).state ≠ .running := by rw [h]; nofun
    exact .of_hold (by rw [e1]; exact hn) (by rw [e2]; exact (hx hb).hold hn)
  | leaveJam hi h hl => exact .of_hold nofun ((hx hb).hold (by rw [h]; nofun))
  | drain hi h hl => exact .of_hold nofun ((hx hb).hold (by rw [h]; nofun))
  | decide hi hp hd hk hy hb' =>
    obtain ⟨g, -, e⟩ := hy.list
    have hx' := hk.rated (x := { s.lane l with list := _ }) ((hx hb).of_same rfl rfl (modTagged_length _ _ _) rfl)
    exact hx'.of_same hy.state hy.monitors (by rw [e, modTagged_length]) hy.feedRate

/-- A changed lane is the only one whose rate may wait after its change. -/
theorem LaneChange.stale {i : Instr} {s : State} {l : Lane} {a b : Option Lane} {y : LaneS}
    (h : LaneChange i s l a b y) {m : Lane} (hm : m ≠ l) (ha : a = some m) : b = some m := by
  subst ha
  have not : ¬((some m : Option Lane) = none ∨ some m = some l) := by simpa using hm
  cases h with
  | rate h => exact absurd h not
  | judge _ _ h => exact absurd h not
  | file | jam | clear | leaveJam | drain | decide | fire | suppress | endStrike | passPocket | choose | clearCounts => rfl

/-- Every lane but one has its rate, and what holds in its state. -/
def State.StatesHold (a : Option Lane) (s : State) : Prop := ∀ l, (s.lane l).RestHolds ∧ (a ≠ some l → (s.lane l).Rated)

theorem Move.statesHold {i : Instr} {a b : Option Lane} {s t : State} (h : Move i a s b t) (hs : s.StatesHold a) :
    t.StatesHold b := by
  intro m
  obtain ⟨h1, h2⟩ := hs m
  cases h with
  | outer h => rw [h.lane]; exact ⟨h1, h2⟩
  | store h => rw [h.lane]; exact ⟨h1, h2⟩
  | lane h =>
    rcases h.change with ⟨rfl, hk⟩ | ⟨l, hl, ho⟩
    · exact ⟨(hk.lanes m).restHolds h1, fun hb => (hk.lanes m).rated (h2 hb)⟩
    · by_cases hm : m = l
      · subst hm
        exact ⟨hl.restHolds h1, hl.rated h2⟩
      · exact ⟨(ho m hm).restHolds h1, fun hb => (ho m hm).rated (h2 fun ha => hb (hl.stale hm ha))⟩
  | reset =>
    rw [resetBlocks_lane]
    obtain ⟨e1, e2, e3, e4, e5, e6, -⟩ := (s.lane m).resetOwn_values
    exact ⟨.of_resting (.inl e1) (fun _ => e2) ⟨e3, e4, e5⟩, fun _ => .of_hold (by rw [e1]; nofun) e6⟩
  | power =>
    cases m <;> exact ⟨.of_resting (.inl rfl) (fun _ => rfl) ⟨rfl, rfl, rfl⟩, fun _ => .of_hold nofun rfl⟩

/-- Settles O58: a record is captured beyond the newest, and a rate that a step leaves waiting is worked out
before the step ends. -/
theorem lanesKeepLeadOrderAndStates : Obligations.LanesKeepLeadOrderAndStates := by
  intro s t h
  refine ⟨fun ha hn => ?_, fun hs => ?_⟩
  · refine step_keeps_capture (P := fun s => ∀ l, (s.lane l).LeadsAscend) (Q := fun s => ∀ l, (s.lane l).LeadsNear)
      (fun _ _ h => h) (fun _ _ h => h) (fun _ _ _ _ _ hi m hs => m.leadsAscend hi hs) (fun s l hn hs hc _ m => ?_) h hn ha
    rw [State.modLane_lane_eq]
    split
    · exact (hs l).capture (hn l) hc
    · exact hs m
  · rcases step_moves h with rfl | ⟨i, rest, -, -, hm⟩
    · exact hs
    · have ht := hm.keeps (P := fun a s => s.StatesHold a) (fun _ _ _ _ m => m.statesHold) fun l =>
        ⟨((stateHolds_iff _).1 (hs l)).2, fun _ => ((stateHolds_iff _).1 (hs l)).1⟩
      exact fun l => (stateHolds_iff _).2 ⟨(ht l).2 nofun, (ht l).1⟩

end Sys2Proof.Machine

/-! O57: CAPTURED, the pockets' inbound and their levels agree with the lists. -/

namespace Sys2Proof.Machine

/-! ### The counts of a lane -/

/-- The number of a list's records that have a pocket. -/
theorem pocketed_eq (ps : List Piece) (k : Fin 10) :
    (ps.filter fun p => p.pocket == some k).length = (ps.map Piece.pocket).count (some k) := by
  rw [List.count_eq_countP, List.countP_map, ← List.countP_eq_length_filter]
  rfl

theorem kept_map {α : Type} {f : Piece → α} (hf : ∀ p q : Piece, p.Kept q → f q = f p) {ps qs : List Piece}
    (h : List.Forall₂ Piece.Kept ps qs) : qs.map f = ps.map f := by
  induction h with
  | nil => rfl
  | cons h1 _ ih => simp [hf _ _ h1, ih]

theorem kept_mem {ps qs : List Piece} (h : List.Forall₂ Piece.Kept ps qs) {q : Piece} (hq : q ∈ qs) :
    ∃ p ∈ ps, p.Kept q := by
  induction h with
  | nil => cases hq
  | cons h1 _ ih =>
    rcases List.mem_cons.1 hq with rfl | hq
    · exact ⟨_, List.mem_cons_self, h1⟩
    · obtain ⟨p, hp, hk⟩ := ih hq
      exact ⟨p, List.mem_cons_of_mem _ hp, hk⟩

/-- Kept records, counters and pockets keep the counts right. -/
theorem LaneS.CountsRight.of_kept {x y : LaneS} (h : x.CountsRight) (hl : List.Forall₂ Piece.Kept x.list y.list)
    (hc : y.counters.captured = x.counters.captured) (hd : y.counters.dispositions = x.counters.dispositions)
    (hp : ∀ k, (x.pockets.get k).Alike (y.pockets.get k)) : y.CountsRight where
  balanced := by
    unfold LaneS.Balanced
    rw [hc, hd, ← hl.length_eq]
    exact h.balanced
  distinct := by
    unfold LaneS.TagsDistinct
    rw [kept_tags hl]
    exact h.distinct
  decided q hq hdec := by
    obtain ⟨p, hp, hk⟩ := kept_mem hl hq
    exact hk.disposition (h.decided p hp (hk.decisionTaken ▸ hdec))
  pocketless q hq ht := by
    obtain ⟨p, hp, hk⟩ := kept_mem hl hq
    exact hk.pocket.trans (h.pocketless p hp (hk.pocketTaken ▸ ht))
  inbound k := by
    obtain ⟨h1, h2⟩ := h.inbound k
    rw [(hp k).inbound, pocketed_eq, kept_map (fun _ _ hk => hk.pocket) hl, ← pocketed_eq]
    exact ⟨h1, fun hw => ((hp k).waits hw).elim h2 id⟩

/-- Equal records, counters and pockets are counted alike. -/
theorem LaneS.CountsRight.of_same {x y : LaneS} (h : x.CountsRight) (hl : y.list = x.list)
    (hc : y.counters.captured = x.counters.captured) (hd : y.counters.dispositions = x.counters.dispositions)
    (hp : y.pockets = x.pockets) : y.CountsRight :=
  h.of_kept (hl ▸ forall₂_kept_refl _) hc hd (hp ▸ fun _ => .refl _)

theorem mem_modTagged {tag : Tag} {f : Piece → Piece} {ps : List Piece} {q : Piece} (h : q ∈ modTagged tag f ps) :
    (q ∈ ps ∧ q.tag ≠ tag) ∨ ∃ p ∈ ps, p.tag = tag ∧ q = f p := by
  obtain ⟨p, hp, rfl⟩ := List.mem_map.1 h
  by_cases ht : p.tag = tag
  · rw [if_pos ht]; exact .inr ⟨p, hp, ht, rfl⟩
  · rw [if_neg ht]; exact .inl ⟨hp, ht⟩

/-- A capture adds one to CAPTURED and one record, which carries a fresh tag (R40, R51, R147). -/
theorem LaneS.CountsRight.capture {x : LaneS} (h : x.CountsRight) (hf : x.TagFree) (hc : x.counters.captured < 4294967295) :
    x.captureAtEdge.CountsRight where
  balanced := by
    have hb : x.counters.captured = x.list.length + x.counters.dispositions.toList.sum := h.balanced
    show min (x.counters.captured + 1) 4294967295 = (x.list ++ [captured x.nextTag x.belt]).length
      + x.counters.dispositions.toList.sum
    rw [List.length_append, List.length_singleton]
    omega
  distinct := by
    show ((x.list ++ [captured x.nextTag x.belt]).map Piece.tag).Nodup
    rw [List.map_append, List.nodup_append]
    refine ⟨h.distinct, List.nodup_singleton _, fun t ht u hu => ?_⟩
    obtain ⟨p, hp, rfl⟩ := List.mem_map.1 ht
    obtain rfl : u = x.nextTag := by simpa [captured] using hu
    exact hf p hp
  decided q hq hd := by
    rcases List.mem_append.1 hq with hq | hq
    · exact h.decided q hq hd
    · rw [List.mem_singleton.1 hq] at hd
      cases hd
  pocketless q hq ht := by
    rcases List.mem_append.1 hq with hq | hq
    · exact h.pocketless q hq ht
    · rw [List.mem_singleton.1 hq]
      rfl
  inbound k := by
    have hl : (x.captureAtEdge.list.filter fun p => p.pocket == some k) = x.list.filter fun p => p.pocket == some k := by
      show (x.list ++ [captured x.nextTag x.belt]).filter _ = _
      rw [List.filter_append]
      exact List.append_nil _
    rw [hl]
    exact h.inbound k

/-! ### Hand-offs -/

/-- A list without the record of one tag, which it holds once. -/
theorem without_tag {ps : List Piece} {p : Piece} (hp : p ∈ ps) (hd : (ps.map Piece.tag).Nodup) :
    ps.Perm (p :: ps.filter fun q => !(q.tag == p.tag)) := by
  induction ps with
  | nil => cases hp
  | cons a ps ih =>
    obtain ⟨hna, hd'⟩ := List.nodup_cons.1 hd
    by_cases ha : a.tag = p.tag
    · have heq : a = p := by
        rcases List.mem_cons.1 hp with h | h
        · exact h.symm
        · exact absurd (List.mem_map.2 ⟨p, h, ha.symm⟩) hna
      subst heq
      rw [List.filter_cons_of_neg (by simp), List.filter_eq_self.2 fun q hq => ?_]
      simp only [Bool.not_eq_true', beq_eq_false_iff_ne]
      exact fun hh => hna (List.mem_map.2 ⟨q, hq, hh⟩)
    · have hp' : p ∈ ps := (List.mem_cons.1 hp).resolve_left fun h => ha (h ▸ rfl)
      rw [List.filter_cons_of_pos (by simp [ha])]
      exact ((ih hp' hd').cons a).trans (List.Perm.swap _ _ _)

theorem get_le_sum {n : Nat} (v : Vector Nat n) (i : Fin n) : v.get i ≤ v.toList.sum :=
  List.single_le_sum (fun _ _ => Nat.zero_le _) _ (by simp [Vector.get])

theorem list_sum_set_succ (ns : List Nat) (i : Nat) (h : i < ns.length) : (ns.set i (ns[i] + 1)).sum = ns.sum + 1 := by
  induction ns generalizing i with
  | nil => cases h
  | cons n ns ih =>
    cases i with
    | zero => simp; omega
    | succ i => simp [ih i (by simpa using h)]; omega

/-- A counter of a family that rises by one raises the family's sum by one. -/
theorem sum_set_succ {n : Nat} (v : Vector Nat n) (i : Fin n) :
    (v.set i.val (v.get i + 1) i.isLt).toList.sum = v.toList.sum + 1 := by
  have e : v.get i = v.toList[i.val]'(by simp) := by simp [Vector.get]
  rw [Vector.toList_set, e]
  exact list_sum_set_succ _ _ _

/-- The counters after a hand-off (R146). -/
theorem LaneS.handOff_counters {way : Way} {p : Piece} {d : Disposition} (hd : (retired way p).disposition = some d)
    (x : LaneS) : (x.handOff way p).counters = x.counters.disposed d := by
  obtain ⟨w, hw, -⟩ :=
    (((x.drop p.tag).countRetired (retired way p)).pocketRetired way (retired way p)).windowRetired_eq way (retired way p)
  obtain ⟨ks, hk⟩ := ((x.drop p.tag).countRetired (retired way p)).pocketRetired_eq way (retired way p)
  rw [LaneS.handOff, hw, hk, LaneS.countRetired, hd]
  rfl

theorem retired_pocket (way : Way) (p : Piece) : (retired way p).pocket = p.pocket := by cases way <;> rfl

/-- The pockets after a hand-off (R138). -/
theorem LaneS.handOff_pockets (way : Way) (p : Piece) (x : LaneS) (k : Fin 10) :
    (x.handOff way p).pockets.get k
      = if p.pocket = some k then Pocket.retire way (retired way p) (x.pockets.get k) else x.pockets.get k := by
  obtain ⟨w, hw, -⟩ :=
    (((x.drop p.tag).countRetired (retired way p)).pocketRetired way (retired way p)).windowRetired_eq way (retired way p)
  obtain ⟨c, hc⟩ := (x.drop p.tag).countRetired_eq (retired way p)
  rw [LaneS.handOff, hw, hc, LaneS.pocketRetired, retired_pocket]
  cases hp : p.pocket with
  | none => rfl
  | some j =>
    show (x.pockets.set j.val (Pocket.retire way (retired way p) (x.pockets.get j)) j.isLt).get k = _
    rw [vectorGet_set]
    by_cases hj : k = j
    · subst hj; simp
    · rw [if_neg hj, if_neg (by simpa using Ne.symm hj)]

theorem Pocket.settleSweep_keeps (x : Pocket) :
    x.settleSweep.inbound = x.inbound ∧ x.settleSweep.count = x.count
      ∧ (x.settleSweep.state = .sweepWait → x.state = .sweepWait ∧ 0 < x.inbound) := by
  unfold Pocket.settleSweep
  split
  · exact ⟨rfl, rfl, nofun⟩
  · rename_i h
    exact ⟨rfl, rfl, fun hs => ⟨hs, Nat.pos_of_ne_zero fun h0 => h ⟨hs, h0⟩⟩⟩

/-- A pocket at a retirement loses one inbound record, and counts it at an ordinary one (R138). -/
theorem Pocket.retire_keeps (way : Way) (p : Piece) (x : Pocket) :
    (x.retire way p).inbound = x.inbound - 1 ∧ (x.retire way p).count ≤ x.count + 1
      ∧ (way ≠ .ordinary → (x.retire way p).count = x.count)
      ∧ ((x.retire way p).state = .sweepWait → 0 < (x.retire way p).inbound) := by
  unfold Pocket.retire
  cases way with
  | ordinary =>
    obtain ⟨h1, h2, h3⟩ := Pocket.settleSweep_keeps
      { x with
        inbound := x.inbound - 1, count := x.count + 1, valueSum := x.valueSum + p.value
        lastTag := some p.tag, firstTag := some (x.firstTag.getD p.tag) }
    exact ⟨h1, Nat.le_of_eq h2, fun h => absurd rfl h, fun hs => h1 ▸ (h3 hs).2⟩
  | glitch | jamClear | lineReset =>
    obtain ⟨h1, h2, h3⟩ := Pocket.settleSweep_keeps { x with inbound := x.inbound - 1 }
    exact ⟨h1, Nat.le_trans (Nat.le_of_eq h2) (Nat.le_succ _), fun _ => h2, fun hs => h1 ▸ (h3 hs).2⟩

/-- A hand-off of a record of the list, which has a disposition, keeps the counts right (R138, R146,
R147). -/
theorem LaneS.CountsRight.handOff {x : LaneS} (h : x.CountsRight) (hc : x.counters.captured ≤ 4294967295) {way : Way}
    {p : Piece} (hp : p ∈ x.list) (hd : (retired way p).disposition.isSome = true) :
    (x.handOff way p).CountsRight ∧ (x.handOff way p).counters.captured = x.counters.captured := by
  obtain ⟨d, hd⟩ := Option.isSome_iff_exists.1 hd
  have hperm := without_tag hp h.distinct
  obtain ⟨c, ks, w, e, -⟩ := x.handOff_eq way p
  have hlist : (x.handOff way p).list = x.list.filter fun q => !(q.tag == p.tag) := by rw [e]; rfl
  have hcnt := x.handOff_counters hd
  have hb : x.counters.captured = x.list.length + x.counters.dispositions.toList.sum := h.balanced
  have hlen := hperm.length_eq
  rw [List.length_cons] at hlen
  have hsub : (x.list.filter fun q => !(q.tag == p.tag)) ⊆ x.list := List.filter_subset_self _
  refine ⟨⟨?_, ?_, fun q hq => ?_, fun q hq => ?_, fun k => ?_⟩, by rw [hcnt]; rfl⟩
  · have hle := get_le_sum x.counters.dispositions d.index
    have hinc : satInc Config.max32 (x.counters.dispositions.get d.index) = x.counters.dispositions.get d.index + 1 := by
      show min _ 4294967295 = _
      omega
    unfold LaneS.Balanced
    rw [hlist, hcnt]
    show x.counters.captured = _ + (x.counters.dispositions.set d.index.val (satInc _ _) d.index.isLt).toList.sum
    rw [hinc, sum_set_succ]
    omega
  · unfold LaneS.TagsDistinct
    rw [hlist]
    exact h.distinct.sublist (List.Sublist.map _ List.filter_sublist)
  · exact h.decided q (hsub (hlist ▸ hq))
  · exact h.pocketless q (hsub (hlist ▸ hq))
  · obtain ⟨h1, h2⟩ := h.inbound k
    have hcount := (hperm.map Piece.pocket).count_eq (some k)
    rw [List.map_cons, List.count_cons] at hcount
    rw [pocketed_eq] at h1 ⊢
    rw [hlist, x.handOff_pockets way p k]
    by_cases hk : p.pocket = some k
    · obtain ⟨r1, -, -, r2⟩ := (x.pockets.get k).retire_keeps way (retired way p)
      rw [if_pos hk]
      refine ⟨?_, r2⟩
      rw [r1, h1, hcount, hk]
      simp
    · rw [if_neg hk]
      refine ⟨?_, h2⟩
      rw [h1, hcount]
      simp [hk]

/-- A record retired by a jam or a reset has a disposition (R59, R61). -/
theorem retired_isSome {way : Way} (h : way ≠ .ordinary) (p : Piece) : (retired way p).disposition.isSome = true := by
  cases way <;> first | rfl | exact absurd rfl h

/-- Handing off different records of the list one after another keeps the counts right (R59, R61). -/
theorem LaneS.CountsRight.handOffs {way : Way} (hw : way ≠ .ordinary) {ps : List Piece} {x : LaneS} (h : x.CountsRight)
    (hc : x.counters.captured ≤ 4294967295) (hp : ∀ p ∈ ps, p ∈ x.list) (hd : (ps.map Piece.tag).Nodup) :
    (x.handOffs way ps).CountsRight ∧ (x.handOffs way ps).counters.captured = x.counters.captured := by
  induction ps generalizing x with
  | nil => exact ⟨h, rfl⟩
  | cons p ps ih =>
    obtain ⟨h1, h2⟩ := h.handOff hc (hp p List.mem_cons_self) (retired_isSome hw p)
    obtain ⟨hnot, hd'⟩ := List.nodup_cons.1 hd
    obtain ⟨c, ks, w, e, -⟩ := x.handOff_eq way p
    obtain ⟨h3, h4⟩ := ih h1 (h2 ▸ hc) (fun q hq => by
      rw [e]
      refine List.mem_filter.2 ⟨hp q (List.mem_cons_of_mem _ hq), ?_⟩
      simp only [Bool.not_eq_true', beq_eq_false_iff_ne]
      exact fun hh => hnot (List.mem_map.2 ⟨q, hq, hh⟩)) hd'
    exact ⟨h3, h4.trans h2⟩

theorem piece?_mem {s : State} {l : Lane} {tag : Tag} {p : Piece} (h : s.piece? l tag = some p) : p ∈ (s.lane l).list :=
  List.mem_of_find?_eq_some h

theorem newest?_mem {s : State} {l : Lane} {p : Piece} (h : s.newest? l = some p) : p ∈ (s.lane l).list :=
  List.mem_of_getLast? h

/-- A list with one record changed counts it apart. -/
theorem modTagged_perm {ps : List Piece} {p : Piece} (hp : p ∈ ps) (hd : (ps.map Piece.tag).Nodup) (f : Piece → Piece) :
    (modTagged p.tag f ps).Perm (f p :: ps.filter fun q => !(q.tag == p.tag)) := by
  have h := (without_tag hp hd).map fun q => if q.tag = p.tag then f q else q
  refine h.trans ?_
  rw [List.map_cons, if_pos rfl]
  refine List.Perm.of_eq (congrArg _ ?_)
  refine (List.map_congr_left fun q hq => ?_).trans (List.map_id _)
  have := (List.mem_filter.1 hq).2
  simp only [Bool.not_eq_true', beq_eq_false_iff_ne] at this
  rw [if_neg this]
  rfl

/-- A record that takes a pocket at its pocket point (R135). -/
def Piece.pocketed (k : Fin 10) (p : Piece) : Piece := { p.atPocketPoint with pocket := some k }

/-- A pocket point whose record takes a pocket keeps the counts right (R133, R135). -/
theorem LaneS.CountsRight.choose {x : LaneS} (h : x.CountsRight) {p : Piece} (hp : p ∈ x.list) (hk : p.pocketTaken = false)
    (k : Fin 10) :
    LaneS.CountsRight
      { x with
        list := modTagged p.tag (fun q => { q with pocket := some k }) (modTagged p.tag Piece.atPocketPoint x.list)
        pockets := x.pockets.set k.val { x.pockets.get k with inbound := (x.pockets.get k).inbound + 1 } k.isLt } := by
  have hnone := h.pocketless p hp hk
  have hmod : modTagged p.tag (fun q => { q with pocket := some k }) (modTagged p.tag Piece.atPocketPoint x.list)
      = modTagged p.tag (Piece.pocketed k) x.list :=
    modTagged_modTagged (by intro; rfl) _
  rw [hmod]
  have hb : x.counters.captured = x.list.length + x.counters.dispositions.toList.sum := h.balanced
  refine ⟨?_, ?_, fun q hq hd => ?_, fun q hq ht => ?_, fun j => ?_⟩
  · unfold LaneS.Balanced
    rw [modTagged_length]
    exact hb
  · unfold LaneS.TagsDistinct
    rw [modTagged_map (by intro; rfl)]
    exact h.distinct
  · rcases mem_modTagged hq with ⟨hq, -⟩ | ⟨r, hr, -, rfl⟩
    · exact h.decided q hq hd
    · exact h.decided r hr hd
  · rcases mem_modTagged hq with ⟨hq, -⟩ | ⟨r, hr, -, rfl⟩
    · exact h.pocketless q hq ht
    · cases ht
  · obtain ⟨h1, h2⟩ := h.inbound j
    rw [pocketed_eq] at h1 ⊢
    have c1 := ((without_tag hp h.distinct).map Piece.pocket).count_eq (some j)
    have c2 := ((modTagged_perm hp h.distinct (Piece.pocketed k)).map Piece.pocket).count_eq (some j)
    have hnew : (Piece.pocketed k p).pocket = some k := rfl
    rw [List.map_cons, List.count_cons, hnone] at c1
    rw [List.map_cons, List.count_cons, hnew] at c2
    rw [vectorGet_set]
    by_cases hj : j = k
    · subst hj
      rw [if_pos rfl]
      refine ⟨?_, fun _ => Nat.succ_pos _⟩
      show (x.pockets.get j).inbound + 1 = ((modTagged p.tag (Piece.pocketed j) x.list).map Piece.pocket).count (some j)
      rw [c2, h1, c1]
      simp
    · rw [if_neg hj]
      refine ⟨?_, h2⟩
      show (x.pockets.get j).inbound = ((modTagged p.tag (Piece.pocketed k) x.list).map Piece.pocket).count (some j)
      rw [c2, h1, c1]
      simp [Ne.symm hj]

/-- A decided record has its disposition, and the counts stay right (R104). -/
theorem LaneS.CountsRight.decide {x y z : LaneS} {tag : Tag} (h : x.CountsRight)
    (hx : LaneS.Kept { x with list := modTagged tag (fun q => { q with decisionTaken := true }) x.list } y)
    (hy : y.Settled tag z) : z.CountsRight := by
  obtain ⟨g, hg, e⟩ := hy.list
  have hb : x.counters.captured = x.list.length + x.counters.dispositions.toList.sum := h.balanced
  have kept {q : Piece} (hq : q ∈ y.list) : ∃ p ∈ x.list, q.tag = p.tag ∧ q.pocketTaken = p.pocketTaken
      ∧ q.pocket = p.pocket ∧ (q.tag ≠ tag → p.Kept q) := by
    obtain ⟨r, hr, hk⟩ := kept_mem hx.list hq
    rcases mem_modTagged hr with ⟨hr, -⟩ | ⟨p, hp, ht, rfl⟩
    · exact ⟨r, hr, hk.tag, hk.pocketTaken, hk.pocket, fun _ => hk⟩
    · exact ⟨p, hp, hk.tag, hk.pocketTaken, hk.pocket, fun hn => absurd (hk.tag.trans ht) hn⟩
  refine ⟨?_, ?_, fun q hq hd => ?_, fun q hq ht => ?_, fun k => ?_⟩
  · unfold LaneS.Balanced
    rw [hy.captured, hx.captured, hy.dispositions, hx.dispositions, e, modTagged_length, ← hx.list.length_eq, modTagged_length]
    exact hb
  · unfold LaneS.TagsDistinct
    rw [e, modTagged_map fun p => (hg p).1.tag, kept_tags hx.list, modTagged_map (by intro; rfl)]
    exact h.distinct
  · rw [e] at hq
    rcases mem_modTagged hq with ⟨hq, hne⟩ | ⟨r, -, -, rfl⟩
    · obtain ⟨p, hp, -, -, -, hk⟩ := kept hq
      exact (hk hne).disposition (h.decided p hp ((hk hne).decisionTaken ▸ hd))
    · exact (hg r).2
  · rw [e] at hq
    rcases mem_modTagged hq with ⟨hq, -⟩ | ⟨r, hr, -, rfl⟩
    · obtain ⟨p, hp, -, h2, h3, -⟩ := kept hq
      exact h3.trans (h.pocketless p hp (h2 ▸ ht))
    · obtain ⟨p, hp, -, h2, h3, -⟩ := kept hr
      have ht' : p.pocketTaken = false := h2 ▸ (hg r).1.pocketTaken ▸ ht
      exact ((hg r).1.pocket.trans h3).trans (h.pocketless p hp ht')
  · obtain ⟨h1, h2⟩ := h.inbound k
    have ha := hx.pockets k
    rw [hy.pockets, ha.inbound, pocketed_eq, e, modTagged_map fun p => (hg p).1.pocket,
      kept_map (fun _ _ hk => hk.pocket) hx.list, modTagged_map (by intro; rfl), ← pocketed_eq]
    exact ⟨h1, fun hw => (ha.waits hw).elim h2 id⟩

/-- A lane whose counts are right and whose CAPTURED can be. -/
def LaneS.CountsHold (x : LaneS) : Prop := x.CountsRight ∧ x.counters.captured ≤ 4294967295

theorem LaneS.Kept.countsHold {x y : LaneS} (h : x.Kept y) (hx : x.CountsHold) : y.CountsHold :=
  ⟨hx.1.of_kept h.list h.captured h.dispositions h.pockets, h.captured ▸ hx.2⟩

theorem LaneChange.countsHold {i : Instr} {s : State} {l : Lane} {a b : Option Lane} {y : LaneS}
    (h : LaneChange i s l a b y) (hi : i ≠ .leadingEdge l) (hx : (s.lane l).CountsHold) : y.CountsHold := by
  obtain ⟨hx, hc⟩ := hx
  have same (x : LaneS) (e1 : x.list = (s.lane l).list) (e2 : x.counters = (s.lane l).counters)
      (e3 : x.pockets = (s.lane l).pockets) : x.CountsHold := ⟨hx.of_same e1 (by rw [e2]) (by rw [e2]) e3, by rw [e2]; exact hc⟩
  cases h with
  | rate | file | leaveJam | drain | stop | start | resume | fire | suppress | endStrike | judge => exact same _ rfl rfl rfl
  | capture h => exact absurd h hi
  | jam hi h hy => exact hy.countsHold (same _ rfl rfl rfl)
  | retire hi hp hd hk =>
    obtain ⟨h1, h2⟩ := hx.handOff hc (way := .ordinary) (piece?_mem hp) (hx.decided _ (piece?_mem hp) hd)
    exact ⟨h1, h2 ▸ hc⟩
  | @glitch p st hi hp he hd =>
    have hg : LaneS.CountsRight { s.lane l with eye := .armed } := hx.of_same rfl rfl rfl rfl
    obtain ⟨h1, h2⟩ := hg.handOff hc (way := .glitch) (newest?_mem hp) rfl
    exact ⟨h1, h2 ▸ hc⟩
  | clear hi h =>
    obtain ⟨h1, h2⟩ := hx.handOffs (way := .jamClear) nofun hc (fun _ h => h) hx.distinct
    exact ⟨h1, h2 ▸ hc⟩
  | decide hi hp hd hk hy hb =>
    exact ⟨hx.decide hk hy, by rw [hy.captured, hk.captured]; exact hc⟩
  | passPocket hp =>
    refine ⟨⟨?_, ?_, fun q hq hd => ?_, fun q hq ht => ?_, fun k => ?_⟩, hc⟩
    · unfold LaneS.Balanced
      rw [modTagged_length]
      exact hx.balanced
    · unfold LaneS.TagsDistinct
      rw [modTagged_map (by intro; rfl)]
      exact hx.distinct
    · rcases mem_modTagged hq with ⟨hq, -⟩ | ⟨r, hr, -, rfl⟩
      · exact hx.decided q hq hd
      · exact hx.decided r hr hd
    · rcases mem_modTagged hq with ⟨hq, -⟩ | ⟨r, hr, -, rfl⟩
      · exact hx.pocketless q hq ht
      · cases ht
    · obtain ⟨h1, h2⟩ := hx.inbound k
      rw [pocketed_eq, modTagged_map (by intro; rfl), ← pocketed_eq]
      exact ⟨h1, h2⟩
  | @choose _ tag p k hp hk hch =>
    have h := hx.choose (piece?_mem hp) hk k
    rw [piece?_tag hp] at h
    exact ⟨h, hc⟩
  | clearCounts =>
    have hb : (s.lane l).counters.captured = (s.lane l).list.length + (s.lane l).counters.dispositions.toList.sum := hx.balanced
    refine ⟨⟨?_, hx.distinct, hx.decided, hx.pocketless, hx.inbound⟩, ?_⟩
    · show (s.lane l).list.length = (s.lane l).list.length + (Vector.replicate 15 0).toList.sum
      simp
    · show (s.lane l).list.length ≤ 4294967295
      omega

/-- A line reset keeps the counts of a lane right (R61, R147). -/
theorem LaneS.CountsHold.resetOwn {x : LaneS} (h : x.CountsHold) : x.resetOwn.CountsHold := by
  have h0 : LaneS.CountsRight { x with heads := ⟨x.heads.l.emptied, x.heads.t.emptied⟩ } := h.1.of_same rfl rfl rfl rfl
  obtain ⟨h1, h2⟩ := h0.handOffs (way := .lineReset) (ps := x.list) nofun h.2 (fun _ h => h) h.1.distinct
  exact ⟨h1.of_same rfl rfl rfl rfl, h2 ▸ h.2⟩

theorem LaneS.initial_countsRight : LaneS.initial.CountsRight := by
  refine ⟨rfl, .nil, fun _ hp => absurd hp List.not_mem_nil, fun _ hp => absurd hp List.not_mem_nil, fun k => ?_⟩
  simp [LaneS.initial, Pocket.initial, Vector.get]

theorem Move.countsHold {i : Instr} {a b : Option Lane} {s t : State} (hi : ∀ l, i ≠ .leadingEdge l) (h : Move i a s b t)
    (hs : ∀ l, (s.lane l).CountsHold) (m : Lane) : (t.lane m).CountsHold := by
  cases h with
  | outer h => rw [h.lane]; exact hs m
  | store h => rw [h.lane]; exact hs m
  | lane h =>
    rcases h.change with ⟨-, h⟩ | ⟨l, hl, ho⟩
    · exact (h.lanes m).countsHold (hs m)
    · by_cases hm : m = l
      · subst hm; exact hl.countsHold (hi m) (hs m)
      · exact (ho m hm).countsHold (hs m)
  | reset => rw [resetBlocks_lane]; exact (hs m).resetOwn
  | power =>
    have h : LaneS.CountsHold { LaneS.initial with eyeCovered := (s.lane m).eyeCovered } :=
      ⟨LaneS.initial_countsRight.of_same rfl rfl rfl rfl, Nat.zero_le _⟩
    cases m <;> exact h

end Sys2Proof.Machine

/-! O57: no pocket holds more than its hard_level. -/

namespace Sys2Proof.Machine

/-- What a pocket holds with what is on its way to it (R133). -/
def Pocket.load (x : Pocket) : Nat := x.count + x.inbound

theorem Pocket.Alike.load {x y : Pocket} (h : x.Alike y) : y.load ≤ x.load := by
  unfold Pocket.load
  rw [h.inbound]
  exact Nat.add_le_add_right h.count _

/-- A retirement adds nothing to a pocket that has the record inbound (R138). -/
theorem Pocket.load_retire (way : Way) (p : Piece) {x : Pocket} (h : 0 < x.inbound) : (x.retire way p).load ≤ x.load := by
  obtain ⟨h1, h2, -, -⟩ := x.retire_keeps way p
  unfold Pocket.load
  omega

/-- A pocket of a record of the list has inbound (R133). -/
theorem LaneS.CountsRight.inbound_pos {x : LaneS} (h : x.CountsRight) {p : Piece} (hp : p ∈ x.list) {k : Fin 10}
    (hk : p.pocket = some k) : 0 < (x.pockets.get k).inbound := by
  rw [(h.inbound k).1]
  exact List.length_pos_of_mem (List.mem_filter.2 ⟨hp, by simp [hk]⟩)

theorem LaneS.CountsRight.load_handOff {x : LaneS} (h : x.CountsRight) {way : Way} {p : Piece} (hp : p ∈ x.list)
    (k : Fin 10) : ((x.handOff way p).pockets.get k).load ≤ (x.pockets.get k).load := by
  rw [x.handOff_pockets]
  split
  · exact Pocket.load_retire _ _ (h.inbound_pos hp ‹_›)
  · exact Nat.le_refl _

/-- Handing off by a jam or a reset adds nothing to a pocket (R138). -/
theorem LaneS.load_handOffs {way : Way} (hw : way ≠ .ordinary) (ps : List Piece) (x : LaneS) (k : Fin 10) :
    ((x.handOffs way ps).pockets.get k).load ≤ (x.pockets.get k).load := by
  induction ps generalizing x with
  | nil => exact Nat.le_refl _
  | cons p ps ih =>
    refine Nat.le_trans (ih (x.handOff way p)) ?_
    rw [x.handOff_pockets]
    split
    · obtain ⟨h1, -, h2, -⟩ := (x.pockets.get k).retire_keeps way (retired way p)
      unfold Pocket.load
      rw [h1, h2 hw]
      omega
    · exact Nat.le_refl _

/-- A pocket that is chosen has room below its hard_level, where full_level lies within it (R134, R136). -/
theorem choose_room {s : State} {l : Lane} {ks : List (Fin 10)} {k : Fin 10} (h : s.choose l ks = some k)
    (ho : ((s.stackerMap l).levels.get k).fullLevel ≤ ((s.stackerMap l).levels.get k).hardLevel) :
    (s.pocket l k).load < ((s.stackerMap l).levels.get k).hardLevel := by
  unfold State.choose at h
  dsimp only at h
  split at h
  · rename_i j hj
    cases h
    have := List.find?_some hj
    simp only [openSelectable, Bool.and_eq_true, decide_eq_true_eq] at this
    exact Nat.lt_of_lt_of_le this.2 ho
  · have := List.find?_some h
    simp only [overfillSelectable, Bool.and_eq_true, decide_eq_true_eq] at this
    exact this.2

/-- A changed lane's pockets hold no more, or one that had room below its hard_level one more. -/
theorem LaneChange.load {i : Instr} {s : State} {l : Lane} {a b : Option Lane} {y : LaneS}
    (h : LaneChange i s l a b y) (hx : (s.lane l).CountsRight) (hf : s.PocketsFit) (k : Fin 10) :
    (y.pockets.get k).load ≤ ((s.stackerMap l).levels.get k).hardLevel := by
  have held : ((s.lane l).pockets.get k).load ≤ ((s.stackerMap l).levels.get k).hardLevel := hf.held l k
  cases h with
  | rate | file | capture | leaveJam | drain | stop | start | resume | fire | suppress | endStrike | passPocket
  | clearCounts | judge => exact held
  | jam hi h hy => exact Nat.le_trans (hy.pockets k).load held
  | retire hi hp hd hk => exact Nat.le_trans (hx.load_handOff (piece?_mem hp) k) held
  | @glitch p st hi hp he hd =>
    have hg : LaneS.CountsRight { s.lane l with eye := .armed } := hx.of_same rfl rfl rfl rfl
    exact Nat.le_trans (hg.load_handOff (newest?_mem hp) k) held
  | clear hi h => exact Nat.le_trans (LaneS.load_handOffs (way := .jamClear) nofun _ _ k) held
  | decide hi hp hd hk hy hb =>
    rw [hy.pockets]
    exact Nat.le_trans (hk.pockets k).load held
  | @choose _ tag p j hp hk hc =>
    show (((s.lane l).pockets.set j.val { (s.lane l).pockets.get j with inbound := ((s.lane l).pockets.get j).inbound + 1 }
      j.isLt).get k).load ≤ _
    rw [vectorGet_set]
    split
    · rename_i hj
      subst hj
      have := choose_room hc (hf.ordered l k)
      show ((s.lane l).pockets.get k).count + (((s.lane l).pockets.get k).inbound + 1) ≤ _
      unfold Pocket.load State.pocket at this
      omega
    · exact held

/-! ### The Stacker Map -/

/-- The entries of a level pair that are read have full_level within hard_level (R131). -/
theorem readEntry_levels {s : State} {t : Table} {bs : List Byte} {l : Lane} {k : Fin 10} {v : Levels}
    (h : s.readEntry t bs = some (.levels l k v)) : v.fullLevel ≤ v.hardLevel := by
  obtain ⟨ht, -⟩ := readEntry_some h
  obtain rfl : t = .stacker := ht.symm
  obtain ⟨-, ha, -⟩ := readStacker_some h
  obtain ⟨-, -, h3, -⟩ := ha
  exact h3

/-- Every entry but a level pair leaves the levels. -/
theorem enterEntry_levels (s : State) {e : Entry} (he : ∀ l k v, e ≠ .levels l k v) (l : Lane) :
    ((s.enterEntry e).stackerMap l).levels = (s.stackerMap l).levels := by
  cases e with
  | levels l k v => exact absurd rfl (he l k v)
  | route m r ks =>
    show ((s.store.tables.stacker.set m (Stacker.withRoute r ks (s.store.tables.stacker.get m))).get l).levels = _
    by_cases hl : l = m
    · subst hl
      rw [PerLane.get_set]
      rfl
    · rw [PerLane.get_set_ne _ _ hl]
      rfl
  | _ => rfl

/-- A level pair entered is held at what its pocket holds, and leaves the other pairs (R132). -/
theorem enterEntry_levels_get (s : State) (l m : Lane) (k j : Fin 10) (v : Levels) :
    ((s.enterEntry (.levels l k v)).stackerMap m).levels.get j
      = if m = l ∧ j = k then heldLevels (s.pocket l k) v else (s.stackerMap m).levels.get j := by
  show ((s.store.tables.stacker.set l (Stacker.withLevels k (heldLevels (s.pocket l k) v) (s.store.tables.stacker.get l))).get m).levels.get j = _
  by_cases hl : m = l
  · subst hl
    rw [PerLane.get_set]
    show ((s.store.tables.stacker.get m).levels.set k.val _ k.isLt).get j = _
    rw [vectorGet_set]
    simp only [true_and]
    rfl
  · rw [PerLane.get_set_ne _ _ hl, if_neg fun h => hl h.1]
    rfl

theorem enterEntry_pocket (s : State) (e : Entry) (l : Lane) (k : Fin 10) : (s.enterEntry e).pocket l k = s.pocket l k := by
  rw [enterEntry_eq]
  rfl

theorem enterEntry_pocketsFit {s : State} {e : Entry} (hf : s.PocketsFit) (he : s.store.phase.next? = some e) :
    (s.enterEntry e).PocketsFit := by
  have hmem : e ∈ s.store.phase.outerTodo ++ s.store.phase.nestedTodo := by
    cases hp : s.store.phase <;> rw [hp] at he <;> try cases he
    · exact List.mem_append_left _ (List.mem_of_mem_head? he)
    · exact List.mem_append_right _ (List.mem_of_mem_head? he)
  refine ⟨fun l k => ?_, by rw [enterEntry_phase]; exact hf.waiting, fun l k => ?_⟩
  · by_cases hlv : ∃ m j v, e = .levels m j v
    · obtain ⟨m, j, v, rfl⟩ := hlv
      rw [enterEntry_levels_get]
      split
      · exact Nat.le_trans (hf.waiting _ hmem m j v rfl) (Nat.le_max_left _ _)
      · exact hf.ordered l k
    · rw [enterEntry_levels s fun m j v h => hlv ⟨m, j, v, h⟩]
      exact hf.ordered l k
  · rw [enterEntry_pocket]
    by_cases hlv : ∃ m j v, e = .levels m j v
    · obtain ⟨m, j, v, rfl⟩ := hlv
      rw [enterEntry_levels_get]
      split
      · rename_i h
        obtain ⟨rfl, rfl⟩ := h
        exact Nat.le_max_right _ _
      · exact hf.held l k
    · rw [enterEntry_levels s fun m j v h => hlv ⟨m, j, v, h⟩]
      exact hf.held l k

/-- The pockets fit where tables and pockets are as they were and no other entry waits. -/
theorem State.PocketsFit.of_less {s t : State} (h : s.PocketsFit) (ht : t.store.tables = s.store.tables)
    (hl : t.lanes = s.lanes)
    (hw : ∀ e ∈ t.store.phase.outerTodo ++ t.store.phase.nestedTodo,
      e ∈ s.store.phase.outerTodo ++ s.store.phase.nestedTodo) : t.PocketsFit := by
  obtain ⟨h1, h2, h3⟩ := h
  refine ⟨?_, fun e he => h2 e (hw e he), ?_⟩
  · unfold State.stackerMap at *
    rw [ht]
    exact h1
  · unfold State.stackerMap State.pocket State.lane at *
    rw [ht, hl]
    exact h3

theorem StoreMove.pocketsFit {s t : State} (h : StoreMove s t) (hf : s.PocketsFit) : t.PocketsFit := by
  have hl := h.keeps.1
  cases h with
  | enter h => exact enterEntry_pocketsFit hf h
  | past h he =>
    rcases pastEntry_cases s h with ⟨p, mark, rest, hp, ht, -, e⟩ | ⟨p, mark, hp, ht, e⟩ | ⟨p, q, rest, hp, ht, -, e⟩ | ⟨p, q, hp, ht, e⟩ <;>
      rw [e] at hl ⊢
    · refine hf.of_less rfl hl fun x hx => ?_
      rw [hp]
      simp only [Phase.outerTodo, ht, Phase.nestedTodo, List.append_nil]
      refine List.mem_cons_of_mem _ ?_
      cases mark <;> simpa [State.setPhase, Phase.outerTodo, Phase.nestedTodo, Programming.advance] using hx
    · refine hf.of_less (by simp [State.setPhase]) hl fun x hx => ?_
      simp [State.setPhase, Phase.outerTodo, Phase.nestedTodo] at hx
    · refine hf.of_less rfl hl fun x hx => ?_
      rw [hp]
      simp only [State.setPhase, Phase.outerTodo, Phase.nestedTodo, Programming.advance, ht, List.mem_append, List.mem_cons] at hx ⊢
      tauto
    · refine hf.of_less (by simp [State.setPhase]) hl fun x hx => ?_
      rw [hp]
      simp only [State.setPhase, State.respond_keeps, Phase.outerTodo, Phase.nestedTodo, List.append_nil] at hx
      exact List.mem_append_left _ hx
  | phase p commits outer nested table bounded =>
    refine hf.of_less rfl hl fun x hx => ?_
    rw [← outer, ← nested]
    exact hx
  | @commit c w es h hw he =>
    obtain ⟨-, hread, -⟩ := checkCommit_passes he
    have read : ∀ x ∈ applicationOrder es, ∀ l k v, x = .levels l k v → v.fullLevel ≤ v.hardLevel := fun x hx l k v e => by
      have hx := (applicationOrder_perm es).mem_iff.1 hx
      have hm : some x ∈ w.received.map (s.readEntry w.table) := hread ▸ List.mem_map_of_mem hx
      obtain ⟨bs, -, hb⟩ := List.mem_map.1 hm
      exact readEntry_levels (e ▸ hb)
    refine ⟨hf.ordered, fun x hx => ?_, hf.held⟩
    cases hp : s.store.phase <;> rw [hp] at hw <;> cases hw
    · simp only [State.beginProgramming, State.setPhase, hp, Phase.committed, Phase.outerTodo, Phase.nestedTodo,
        List.append_nil] at hx
      exact read x hx
    · simp only [State.beginProgramming, State.setPhase, hp, Phase.committed, Phase.outerTodo, Phase.nestedTodo,
        List.mem_append] at hx
      rcases hx with hx | hx
      · exact hf.waiting x (by rw [hp]; exact List.mem_append_left _ hx)
      · exact read x hx

/-- A state whose lanes' pockets hold what they may, its tables and waiting entries as they were. -/
theorem State.PocketsFit.of_lanes {s t : State} (h : s.PocketsFit) (ht : t.store = s.store)
    (hl : ∀ l k, ((t.lane l).pockets.get k).load ≤ ((s.stackerMap l).levels.get k).hardLevel) : t.PocketsFit := by
  obtain ⟨h1, h2, h3⟩ := h
  unfold State.stackerMap at *
  refine ⟨?_, ?_, fun l k => ?_⟩
  · unfold State.stackerMap
    rw [ht]
    exact h1
  · rw [ht]
    exact h2
  · unfold State.stackerMap
    rw [ht]
    exact hl l k

theorem LaneS.load_resetOwn (x : LaneS) (k : Fin 10) : (x.resetOwn.pockets.get k).load ≤ (x.pockets.get k).load :=
  LaneS.load_handOffs (way := .lineReset) nofun x.list { x with heads := ⟨x.heads.l.emptied, x.heads.t.emptied⟩ } k

theorem reset_pocketsFit (s : State) : s.powered.PocketsFit := by
  have levels (l : Lane) (k : Fin 10) :
      (s.powered.stackerMap l).levels.get k = (Stacker.initial).levels.get k := by cases l <;> rfl
  have pocket (l : Lane) (k : Fin 10) : s.powered.pocket l k = .initial := by
    cases l <;> simp [State.powered, State.pocket, State.lane, LaneS.initial, PerLane.get, Vector.get]
  refine ⟨fun l k => ?_, nofun, fun l k => ?_⟩
  · rw [levels]
    simp [Stacker.initial, Vector.get]
  · rw [levels, pocket]
    exact Nat.zero_le _

/-- The counts hold in both lanes, and the pockets fit. -/
structure State.CountsFit (s : State) : Prop where
  counts : ∀ l, (s.lane l).CountsHold
  fit : s.PocketsFit

theorem Move.countsFit {i : Instr} {a b : Option Lane} {s t : State} (hi : ∀ l, i ≠ .leadingEdge l) (h : Move i a s b t)
    (hs : s.CountsFit) : t.CountsFit := by
  refine ⟨h.countsHold hi hs.counts, ?_⟩
  cases h with
  | outer h =>
    have hin := h.inner
    exact hs.fit.of_less hin.tables hin.lanes (by rw [hin.phase]; exact fun _ h => h)
  | store h => exact h.pocketsFit hs.fit
  | lane h =>
    refine hs.fit.of_lanes (by rw [h.within]) fun m k => ?_
    rcases h.change with ⟨-, h⟩ | ⟨l, hl, ho⟩
    · exact Nat.le_trans ((h.lanes m).pockets k).load (hs.fit.held m k)
    · by_cases hm : m = l
      · subst hm; exact hl.load (hs.counts m).1 hs.fit k
      · exact Nat.le_trans ((ho m hm).pockets k).load (hs.fit.held m k)
  | reset =>
    have hr := resetBlocks_reset s
    obtain ⟨h1, h2, h3⟩ := hs.fit
    unfold State.stackerMap at *
    refine ⟨?_, ?_, fun l k => ?_⟩
    · unfold State.stackerMap
      rw [hr.tables]
      exact h1
    · rw [hr.phase]
      nofun
    · unfold State.stackerMap State.pocket
      rw [hr.tables, resetBlocks_lane]
      exact Nat.le_trans ((s.lane l).load_resetOwn k) (h3 l k)
  | power => exact reset_pocketsFit s

/-- Settles O57: hand-offs, captures and choices move the counts together. -/
theorem countsAndInboundStayRight : Obligations.CountsAndInboundStayRight := by
  intro s t hr hf hc h
  have hold : ∀ l, (s.lane l).CountsHold := fun l => ⟨hr l, Nat.le_of_lt (hc l)⟩
  have capture {x : LaneS} (hx : x.CountsHold) (hfree : x.TagFree) (hlt : x.counters.captured < 4294967295) :
      x.captureAtEdge.CountsHold := ⟨hx.1.capture hfree hlt, Nat.min_le_right _ _⟩
  constructor
  · have ht := step_keeps_capture (P := fun s => ∀ l, (s.lane l).CountsHold)
      (Q := fun s => ∀ l, (s.lane l).TagFree ∧ (s.lane l).counters.captured < 4294967295) (fun _ _ h => h) (fun _ _ h => h)
      (fun _ _ _ _ _ hi m hs => m.countsHold hi hs) (fun s l hq hs _ _ m => by
        rw [State.modLane_lane_eq]
        split
        · exact capture (hs l) (hq l).1 (hq l).2
        · exact hs m) h (fun l => ⟨hf l, hc l⟩) hold
    exact fun l => (ht l).1
  · intro hfit
    have ht := step_keeps_capture (P := State.CountsFit)
      (Q := fun s => ∀ l, (s.lane l).TagFree ∧ (s.lane l).counters.captured < 4294967295)
      (fun s rest h => ⟨h.counts, h.fit.of_less rfl rfl fun _ h => h⟩) (fun _ _ h => h)
      (fun _ _ _ _ _ hi m hs => m.countsFit hi hs) (fun s l hq hs _ _ => by
        refine ⟨fun m => ?_, hs.fit.of_lanes rfl fun m k => ?_⟩
        · rw [State.modLane_lane_eq]
          split
          · exact capture (hs.counts l) (hq l).1 (hq l).2
          · exact hs.counts m
        · rw [State.modLane_lane_eq]
          split
          · rename_i hm; exact hm ▸ hs.fit.held l k
          · exact hs.fit.held m k) h (fun l => ⟨hf l, hc l⟩) ⟨hold, hfit⟩
    exact ht.fit

end Sys2Proof.Machine

/-! O56: reserved ink is the sum of the booked costs, and strikes are booked beyond free_pos. -/

namespace Sys2Proof.Machine

/-! ### One head -/

/-- The costs of the booked strikes of one tag and of the others. -/
theorem sum_without (tag : Tag) (ks : List Strike) :
    ((ks.filter fun k => k.tag == tag).map Strike.cost).sum + ((ks.filter fun k => !(k.tag == tag)).map Strike.cost).sum
      = (ks.map Strike.cost).sum := by
  induction ks with
  | nil => rfl
  | cons k ks ih =>
    cases h : k.tag == tag <;> simp [h] <;> omega

theorem modStrike_tags (tag : Tag) (ks : List Strike) : (modStrike tag Strike.taken ks).map Strike.tag = ks.map Strike.tag := by
  unfold modStrike
  rw [List.map_map]
  refine List.map_congr_left fun k _ => ?_
  simp only [Function.comp_apply]
  split <;> rfl

theorem modStrike_of_absent {tag : Tag} {ks : List Strike} (h : tag ∉ ks.map Strike.tag) : modStrike tag Strike.taken ks = ks := by
  unfold modStrike
  refine (List.map_congr_left fun k hk => ?_).trans (List.map_id _)
  rw [if_neg fun e => h (List.mem_map.2 ⟨k, hk, e⟩)]
  rfl

/-- A strike whose start is taken takes its cost out of the sum (R121). -/
theorem sum_modStrike {ks : List Strike} {k : Strike} (hk : k ∈ ks) (hd : (ks.map Strike.tag).Nodup) :
    ((modStrike k.tag Strike.taken ks).map Strike.cost).sum + k.cost = (ks.map Strike.cost).sum := by
  induction ks with
  | nil => cases hk
  | cons a ks ih =>
    obtain ⟨hna, hd'⟩ := List.nodup_cons.1 hd
    by_cases ha : a.tag = k.tag
    · have heq : k = a := by
        rcases List.mem_cons.1 hk with h | h
        · exact h
        · exact absurd (List.mem_map.2 ⟨k, h, ha.symm⟩) hna
      subst heq
      have hrest := modStrike_of_absent hna
      unfold modStrike at hrest ⊢
      rw [List.map_cons, hrest, if_pos rfl]
      simp [Strike.taken]
      omega
    · have hk' : k ∈ ks := (List.mem_cons.1 hk).resolve_left fun h => ha (h ▸ rfl)
      have h := ih hk' hd'
      unfold modStrike at h ⊢
      rw [List.map_cons, if_neg ha]
      simp only [List.map_cons, List.sum_cons]
      omega

theorem Head.Alike.inkBalanced {x y : Head} (h : x.Alike y) (hx : x.InkBalanced) : y.InkBalanced := by
  obtain ⟨h1, h2, h3, h4⟩ := hx
  refine ⟨by rw [h.reserved, h.booking]; exact h1, h.units h2, ?_, ?_⟩
  · rw [h.booking]; exact h3
  · rw [h.booking]; exact h4

/-- An empty booking list reserves nothing. -/
theorem Head.InkBalanced.of_empty {x : Head} (hb : x.booking = []) (hr : x.reserved = 0) : x.InkBalanced := by
  refine ⟨by rw [hb, hr]; rfl, by rw [hr]; exact Nat.zero_le _, ?_, ?_⟩
  · rw [hb]; nofun
  · rw [hb]; exact .nil

/-- A record's strikes leave the list with their costs (R123). -/
theorem Head.InkBalanced.without {x : Head} (h : x.InkBalanced) (tag : Tag) : (x.without tag).InkBalanced := by
  obtain ⟨h1, h2, h3, h4⟩ := h
  have hs := sum_without tag x.booking
  refine ⟨?_, ?_, fun k hk => h3 k (List.mem_of_mem_filter hk), h4.sublist (List.Sublist.map _ List.filter_sublist)⟩
  · show x.reserved - _ = ((x.booking.filter fun k => !(k.tag == tag)).map Strike.cost).sum
    omega
  · show x.reserved - _ ≤ x.units
    omega

theorem strike?_mem {x : Head} {tag : Tag} {k : Strike} (h : x.strike? tag = some k) : k ∈ x.booking ∧ k.tag = tag :=
  ⟨List.mem_of_find?_eq_some h, by simpa using List.find?_some h⟩

/-- A strike that has been taken costs nothing more (R121). -/
theorem modStrike_spent {ks : List Strike} (h : ∀ k ∈ ks, k.started = true → k.cost = 0) (tag : Tag) :
    ∀ k ∈ modStrike tag Strike.taken ks, k.started = true → k.cost = 0 := by
  intro k hk hs
  obtain ⟨j, hj, rfl⟩ := List.mem_map.1 hk
  by_cases hj' : j.tag = tag
  · rw [if_pos hj']
    rfl
  · rw [if_neg hj'] at hs ⊢
    exact h j hj hs

theorem Head.InkBalanced.fire {x : Head} (h : x.InkBalanced) {tag : Tag} {k : Strike} (hk : x.strike? tag = some k) :
    (x.fire k).InkBalanced := by
  obtain ⟨h1, h2, h3, h4⟩ := h
  have hs := sum_modStrike (strike?_mem hk).1 h4
  refine ⟨?_, ?_, modStrike_spent h3 _, ?_⟩
  · show x.reserved - k.cost = _
    simp only [Head.fire]
    omega
  · show x.reserved - k.cost ≤ x.units - k.cost
    omega
  · simp only [Head.fire, modStrike_tags]
    exact h4

theorem Head.InkBalanced.suppress {x : Head} (h : x.InkBalanced) {tag : Tag} {k : Strike} (hk : x.strike? tag = some k) :
    (x.suppress k).InkBalanced := by
  obtain ⟨h1, h2, h3, h4⟩ := h
  have hs := sum_modStrike (strike?_mem hk).1 h4
  refine ⟨?_, ?_, modStrike_spent h3 _, ?_⟩
  · show x.reserved - k.cost = _
    simp only [Head.suppress]
    omega
  · show x.reserved - k.cost ≤ x.units
    omega
  · simp only [Head.suppress, modStrike_tags]
    exact h4

/-- A strike that has started leaves the list without a cost (R121). -/
theorem Head.InkBalanced.endStrike {x : Head} (h : x.InkBalanced) {tag : Tag} {k : Strike} (hk : x.strike? tag = some k)
    (hs : k.started = true) :
    Head.InkBalanced { x with booking := x.booking.filter fun k => !(k.tag == tag) } := by
  obtain ⟨h1, h2, h3, h4⟩ := h
  obtain ⟨hmem, htag⟩ := strike?_mem hk
  have hsum := sum_without tag x.booking
  have hzero : ((x.booking.filter fun k => k.tag == tag).map Strike.cost).sum = 0 := by
    refine List.sum_eq_zero fun c hc => ?_
    obtain ⟨j, hj, rfl⟩ := List.mem_map.1 hc
    obtain ⟨hj, hjt⟩ := List.mem_filter.1 hj
    have : j = k := List.inj_on_of_nodup_map h4 hj hmem ((beq_iff_eq.1 hjt).trans htag.symm)
    rw [this]
    exact h3 k hmem hs
  refine ⟨?_, h2, fun j hj => h3 j (List.mem_of_mem_filter hj), h4.sublist (List.Sublist.map _ List.filter_sublist)⟩
  show x.reserved = ((x.booking.filter fun k => !(k.tag == tag)).map Strike.cost).sum
  omega

/-- A strike that a head can take, of a record it has not booked, keeps its ink balanced (R119, R125). -/
theorem Head.InkBalanced.book {x : Head} (h : x.InkBalanced) {g : Geometry} {k : Strike} (hk : x.Takes g k)
    (hn : k.tag ∉ x.booking.map Strike.tag) : (x.book g k).InkBalanced := by
  obtain ⟨h1, h2, h3, h4⟩ := h
  refine ⟨?_, hk.ink, fun j hj hs => ?_, ?_⟩
  · simp [Head.book, h1]
  · rcases List.mem_append.1 hj with hj | hj
    · exact h3 j hj hs
    · rw [List.mem_singleton.1 hj, hk.fresh] at hs
      cases hs
  · show ((x.booking ++ [k]).map Strike.tag).Nodup
    rw [List.map_append, List.nodup_append]
    refine ⟨h4, List.nodup_singleton _, fun t ht u hu => ?_⟩
    rintro rfl
    rw [List.mem_singleton.1 hu] at ht
    exact hn ht

/-! ### One lane -/

/-- A lane whose ink is balanced and whose strikes are those of its decided records. -/
structure LaneS.InkHolds (x : LaneS) : Prop where
  balanced : ∀ h, (x.heads.get h).InkBalanced
  owned : x.StrikesOwned

/-- The decided records of a list. -/
def decidedTags (ps : List Piece) : List Tag := (ps.filter Piece.decisionTaken).map Piece.tag

theorem mem_decidedTags {ps : List Piece} {tag : Tag} :
    tag ∈ decidedTags ps ↔ ∃ p ∈ ps, p.tag = tag ∧ p.decisionTaken = true := by
  simp only [decidedTags, List.mem_map, List.mem_filter]
  constructor
  · rintro ⟨p, ⟨hp, hd⟩, rfl⟩
    exact ⟨p, hp, rfl, hd⟩
  · rintro ⟨p, hp, rfl, hd⟩
    exact ⟨p, ⟨hp, hd⟩, rfl⟩

theorem LaneS.InkHolds.of_heads {x y : LaneS} (h : x.InkHolds) (hh : ∀ h, (x.heads.get h).Alike (y.heads.get h))
    (ht : y.list.map Piece.tag = x.list.map Piece.tag)
    (hd : ∀ p ∈ x.list, p.decisionTaken = true → ∃ q ∈ y.list, q.tag = p.tag ∧ q.decisionTaken = true) : y.InkHolds := by
  refine ⟨fun k => (hh k).inkBalanced (h.balanced k), ?_, fun k j hj => ?_⟩
  · unfold LaneS.TagsDistinct
    rw [ht]
    exact h.owned.distinct
  · rw [(hh k).booking] at hj
    obtain ⟨p, hp, e, hpd⟩ := h.owned.owned k j hj
    obtain ⟨q, hq, e', hqd⟩ := hd p hp hpd
    exact ⟨q, hq, e'.trans e, hqd⟩

theorem LaneS.InkHolds.of_same {x y : LaneS} (h : x.InkHolds) (hh : y.heads = x.heads) (hl : y.list = x.list) :
    y.InkHolds :=
  h.of_heads (hh ▸ fun _ => .refl _) (by rw [hl]) fun p hp hd => ⟨p, hl ▸ hp, rfl, hd⟩

theorem kept_mem_right {ps qs : List Piece} (h : List.Forall₂ Piece.Kept ps qs) {p : Piece} (hp : p ∈ ps) :
    ∃ q ∈ qs, p.Kept q := by
  induction h with
  | nil => cases hp
  | cons h1 _ ih =>
    rcases List.mem_cons.1 hp with rfl | hp
    · exact ⟨_, List.mem_cons_self, h1⟩
    · obtain ⟨q, hq, hk⟩ := ih hp
      exact ⟨q, List.mem_cons_of_mem _ hq, hk⟩

theorem LaneS.Kept.inkHolds {x y : LaneS} (h : x.Kept y) (hx : x.InkHolds) : y.InkHolds :=
  hx.of_heads h.heads (kept_tags h.list) fun p hp hd => by
    obtain ⟨q, hq, hk⟩ := kept_mem_right h.list hp
    exact ⟨q, hq, hk.tag, hk.decisionTaken.trans hd⟩

theorem modTagged_mem {tag : Tag} {f : Piece → Piece} {ps : List Piece} {p : Piece} (hp : p ∈ ps) :
    (if p.tag = tag then f p else p) ∈ modTagged tag f ps := List.mem_map_of_mem hp

/-- A record changed without its tag, its decision staying taken, keeps the strikes owned. -/
theorem LaneS.InkHolds.of_modTagged {x y : LaneS} (h : x.InkHolds) (hh : y.heads = x.heads) {tag : Tag} {f : Piece → Piece}
    (hl : y.list = modTagged tag f x.list)
    (hf : ∀ p : Piece, (f p).tag = p.tag ∧ (p.decisionTaken = true → (f p).decisionTaken = true)) : y.InkHolds := by
  refine h.of_heads (hh ▸ fun _ => .refl _) ?_ fun p hp hd => ⟨_, hl ▸ modTagged_mem hp, ?_, ?_⟩
  · rw [hl, modTagged_map fun p => (hf p).1]
  · split
    · exact (hf p).1
    · rfl
  · split
    · exact (hf p).2 hd
    · exact hd

/-- Heads changed one at a time: the strikes that stay are owned as they were. -/
theorem LaneS.InkHolds.of_less {x y : LaneS} (h : x.InkHolds) (hb : ∀ h, (y.heads.get h).InkBalanced)
    (hl : y.list = x.list)
    (hk : ∀ h, ∀ k ∈ (y.heads.get h).booking, ∃ j ∈ (x.heads.get h).booking, j.tag = k.tag) : y.InkHolds := by
  refine ⟨hb, by unfold LaneS.TagsDistinct; rw [hl]; exact h.owned.distinct, fun i k hk' => ?_⟩
  obtain ⟨j, hj, e⟩ := hk i k hk'
  obtain ⟨p, hp, e', hd⟩ := h.owned.owned i j hj
  exact ⟨p, hl ▸ hp, e'.trans e, hd⟩

/-- A lane without bookings, its tags distinct. -/
theorem LaneS.InkHolds.of_empty {y : LaneS} (hh : ∀ h, (y.heads.get h).booking = [] ∧ (y.heads.get h).reserved = 0)
    (hd : y.TagsDistinct) : y.InkHolds :=
  ⟨fun h => .of_empty (hh h).1 (hh h).2, hd, fun h k hk => by rw [(hh h).1] at hk; cases hk⟩

/-- A record that leaves the list takes its strikes along (R123). -/
theorem LaneS.InkHolds.handOff {x : LaneS} (h : x.InkHolds) (way : Way) (p : Piece) : (x.handOff way p).InkHolds := by
  obtain ⟨c, ks, w, e, -⟩ := x.handOff_eq way p
  rw [e]
  have get (i : HeadId) : (⟨x.heads.l.without p.tag, x.heads.t.without p.tag⟩ : PerHead Head).get i
      = (x.heads.get i).without p.tag := by cases i <;> rfl
  refine ⟨fun i => ?_, ?_, fun i k hk => ?_⟩
  · show ((⟨x.heads.l.without p.tag, x.heads.t.without p.tag⟩ : PerHead Head).get i).InkBalanced
    rw [get]
    exact (h.balanced i).without _
  · exact h.owned.distinct.sublist (List.Sublist.map _ List.filter_sublist)
  · have hk : k ∈ ((⟨x.heads.l.without p.tag, x.heads.t.without p.tag⟩ : PerHead Head).get i).booking := hk
    rw [get] at hk
    obtain ⟨hk, hne⟩ := List.mem_filter.1 hk
    obtain ⟨q, hq, e, hd⟩ := h.owned.owned i k hk
    exact ⟨q, List.mem_filter.2 ⟨hq, by rw [e]; exact hne⟩, e, hd⟩

theorem LaneS.InkHolds.handOffs {x : LaneS} (h : x.InkHolds) (way : Way) (ps : List Piece) : (x.handOffs way ps).InkHolds := by
  induction ps generalizing x with
  | nil => exact h
  | cons p ps ih => exact ih (h.handOff way p)

theorem LaneS.InkHolds.capture {x : LaneS} (h : x.InkHolds) (hf : x.TagFree) : x.captureAtEdge.InkHolds := by
  refine ⟨h.balanced, ?_, fun i k hk => ?_⟩
  · show ((x.list ++ [captured x.nextTag x.belt]).map Piece.tag).Nodup
    rw [List.map_append, List.nodup_append]
    refine ⟨h.owned.distinct, List.nodup_singleton _, fun t ht u hu => ?_⟩
    obtain ⟨p, hp, rfl⟩ := List.mem_map.1 ht
    obtain rfl : u = x.nextTag := by simpa [captured] using hu
    exact hf p hp
  · obtain ⟨p, hp, e⟩ := h.owned.owned i k hk
    exact ⟨p, List.mem_append_left _ hp, e⟩

/-- One head changed, its ink balanced and no strike added. -/
theorem LaneS.InkHolds.setHead {x : LaneS} (h : x.InkHolds) (i : HeadId) {z : Head} (hz : z.InkBalanced)
    (hk : ∀ k ∈ z.booking, ∃ j ∈ (x.heads.get i).booking, j.tag = k.tag) :
    LaneS.InkHolds { x with heads := x.heads.set i z } := by
  refine h.of_less (fun j => ?_) rfl fun j k hj => ?_
  · show ((x.heads.set i z).get j).InkBalanced
    rw [PerHead.get_set_eq]
    split
    · exact hz
    · exact h.balanced j
  · have hj' : k ∈ ((x.heads.set i z).get j).booking := hj
    rw [PerHead.get_set_eq] at hj'
    split at hj'
    · rename_i e
      rw [e]
      exact hk k hj'
    · exact ⟨k, hj', rfl⟩

theorem modStrike_mem {tag : Tag} {ks : List Strike} {k : Strike} (h : k ∈ modStrike tag Strike.taken ks) :
    ∃ j ∈ ks, j.tag = k.tag := by
  have : k.tag ∈ (modStrike tag Strike.taken ks).map Strike.tag := List.mem_map_of_mem h
  rw [modStrike_tags] at this
  obtain ⟨j, hj, e⟩ := List.mem_map.1 this
  exact ⟨j, hj, e⟩

/-- A decision keeps the ink balanced: it books for an undecided record, which has no strike (R106, R119). -/
theorem LaneS.InkHolds.decide {x y z : LaneS} {tag : Tag} {p : Piece} {g : Geometry} (h : x.InkHolds) (hp : p ∈ x.list)
    (htag : p.tag = tag) (hd : p.decisionTaken = false)
    (hx : LaneS.Kept { x with list := modTagged tag (fun q => { q with decisionTaken := true }) x.list } y)
    (hy : y.Settled tag z) (hb : y.Books g tag z) : z.InkHolds := by
  have hx' : y.InkHolds := hx.inkHolds (h.of_modTagged rfl rfl fun _ => ⟨rfl, fun _ => rfl⟩)
  obtain ⟨f, hf, e⟩ := hy.list
  have hw : LaneS.InkHolds { y with list := z.list } :=
    hx'.of_modTagged rfl e fun q => ⟨(hf q).1.tag, fun hq => (hf q).1.decisionTaken.trans hq⟩
  rcases hb with hb | ⟨i, k, hb, hk, ht⟩
  · exact hw.of_same hb rfl
  · have absent : k.tag ∉ (y.heads.get i).booking.map Strike.tag := by
      intro hm
      obtain ⟨j, hj, hjt⟩ := List.mem_map.1 hm
      have hj' : j ∈ (x.heads.get i).booking := (hx.heads i).booking ▸ hj
      obtain ⟨q, hq, hqt, hqd⟩ := h.owned.owned i j hj'
      have : q = p := List.inj_on_of_nodup_map h.owned.distinct hq hp (by rw [hqt, hjt, hk, htag])
      rw [this, hd] at hqd
      cases hqd
    obtain ⟨q, hq, hqk⟩ := kept_mem_right hx.list (modTagged_mem (tag := tag) (f := fun q => { q with decisionTaken := true }) hp)
    rw [if_pos htag] at hqk
    have hqz : f q ∈ z.list := by
      rw [e]
      have := modTagged_mem (tag := tag) (f := f) hq
      rwa [if_pos (hqk.tag.trans htag)] at this
    refine ⟨fun j => ?_, hw.owned.distinct, fun j m hm => ?_⟩
    · rw [hb, PerHead.get_set_eq]
      split
      · rename_i hj
        exact (hx'.balanced i).book ht absent
      · exact hx'.balanced j
    · rw [hb, PerHead.get_set_eq] at hm
      split at hm
      · rename_i hj
        subst hj
        rcases List.mem_append.1 hm with hm | hm
        · exact hw.owned.owned j m hm
        · rw [List.mem_singleton.1 hm]
          refine ⟨f q, hqz, ?_, ?_⟩
          · rw [(hf q).1.tag, hqk.tag, hk]
            exact htag
          · rw [(hf q).1.decisionTaken, hqk.decisionTaken]
      · exact hw.owned.owned j m hm

theorem LaneChange.inkHolds {i : Instr} {s : State} {l : Lane} {a b : Option Lane} {y : LaneS}
    (h : LaneChange i s l a b y) (hi : i ≠ .leadingEdge l) (hx : (s.lane l).InkHolds) : y.InkHolds := by
  cases h with
  | rate | file | leaveJam | drain | stop | resume | clearCounts | judge => exact hx.of_same rfl rfl
  | capture h => exact absurd h hi
  | jam hi h hy =>
    exact hy.inkHolds (.of_empty (fun j => by cases j <;> exact ⟨rfl, rfl⟩) hx.owned.distinct)
  | start hi h => exact .of_empty (fun j => by cases j <;> exact ⟨rfl, rfl⟩) hx.owned.distinct
  | retire hi hp hd hk => exact hx.handOff _ _
  | glitch hi hp he hd => exact LaneS.InkHolds.handOff (x := { s.lane l with eye := .armed }) (hx.of_same rfl rfl) _ _
  | clear hi h => exact hx.handOffs _ _
  | @decide _ tag p x y hi hp hd hk hy hb => exact hx.decide (piece?_mem hp) (piece?_tag hp) hd hk hy hb
  | @fire _ j tag k hi hk hs => exact hx.setHead j ((hx.balanced j).fire hk) fun m hm => modStrike_mem hm
  | @suppress _ j tag k hi hk hs => exact hx.setHead j ((hx.balanced j).suppress hk) fun m hm => modStrike_mem hm
  | @endStrike _ j tag k hi hk hs =>
    exact hx.setHead j ((hx.balanced j).endStrike hk hs) fun m hm => ⟨m, List.mem_of_mem_filter hm, rfl⟩
  | passPocket hp => exact hx.of_modTagged rfl rfl fun _ => ⟨rfl, id⟩
  | choose hp hk hc =>
    exact LaneS.InkHolds.of_modTagged (x := { s.lane l with list := modTagged _ Piece.atPocketPoint (s.lane l).list })
      (hx.of_modTagged rfl rfl fun _ => ⟨rfl, id⟩) rfl rfl fun _ => ⟨rfl, id⟩

theorem LaneS.inkHolds_resetOwn (x : LaneS) : x.resetOwn.InkHolds := by
  refine .of_empty (fun j => by cases j <;> exact ⟨rfl, rfl⟩) ?_
  unfold LaneS.TagsDistinct
  rw [(x.resetOwn_values).2.1]
  exact .nil

theorem Move.inkHolds {i : Instr} {a b : Option Lane} {s t : State} (hi : ∀ l, i ≠ .leadingEdge l) (h : Move i a s b t)
    (hs : ∀ l, (s.lane l).InkHolds) (m : Lane) : (t.lane m).InkHolds := by
  cases h with
  | outer h => rw [h.lane]; exact hs m
  | store h => rw [h.lane]; exact hs m
  | lane h =>
    rcases h.change with ⟨-, h⟩ | ⟨l, hl, ho⟩
    · exact (h.lanes m).inkHolds (hs m)
    · by_cases hm : m = l
      · subst hm; exact hl.inkHolds (hi m) (hs m)
      · exact (ho m hm).inkHolds (hs m)
  | reset => rw [resetBlocks_lane]; exact (s.lane m).inkHolds_resetOwn
  | power => cases m <;> exact .of_empty (fun j => by cases j <;> exact ⟨rfl, rfl⟩) .nil

end Sys2Proof.Machine

/-! O56: what a step leaves of a head's booked strikes. -/

namespace Sys2Proof.Machine

/-- A booked strike as it was booked, without what its start changes (R119, R121). -/
def Strike.booked (k : Strike) : Tag × Pos × Pos × Die := (k.tag, k.start, k.stop, k.die)

/-- Some of a head's strikes are left, as they were booked, with its free_pos where any stay. -/
def Head.Leaves (x y : Head) : Prop :=
  (y.booking.map Strike.booked).Sublist (x.booking.map Strike.booked) ∧ (y.freePos = x.freePos ∨ y.booking = [])

/-- A head has its strikes and free_pos as they were, or no strike. -/
def Head.Stays (x y : Head) : Prop := (y.booking = x.booking ∧ y.freePos = x.freePos) ∨ y.booking = []

/-- A head has booked one strike more, beyond free_pos (R120). -/
def Head.BooksOne (g : Geometry) (x y : Head) : Prop :=
  ∃ k, y.booking = x.booking ++ [k] ∧ (k.start - x.freePos).toNat < 8388608
    ∧ k.stop = k.start + BitVec.ofNat 24 g.strikeLen ∧ y.freePos = k.start + BitVec.ofNat 24 (g.strikeLen + g.recoverLen)

theorem Head.Leaves.refl (x : Head) : x.Leaves x := ⟨.refl _, .inl rfl⟩

theorem Head.Leaves.trans {x y z : Head} (h : x.Leaves y) (h' : y.Leaves z) : x.Leaves z := by
  obtain ⟨h1, h2⟩ := h
  obtain ⟨h3, h4⟩ := h'
  refine ⟨h3.trans h1, ?_⟩
  rcases h4 with h4 | h4
  · rcases h2 with h2 | h2
    · exact .inl (h4.trans h2)
    · rw [h2] at h3
      exact .inr (List.map_eq_nil_iff.1 (List.sublist_nil.1 h3))
  · exact .inr h4

theorem Head.Leaves.of_empty (x : Head) {y : Head} (h : y.booking = []) : x.Leaves y := by
  refine ⟨?_, .inr h⟩
  rw [h]
  exact List.nil_sublist _

theorem Head.Stays.leaves {x y : Head} (h : x.Stays y) : x.Leaves y := by
  rcases h with ⟨h1, h2⟩ | h
  · refine ⟨?_, .inl h2⟩
    rw [h1]
  · exact .of_empty x h

theorem Head.Stays.refl (x : Head) : x.Stays x := .inl ⟨rfl, rfl⟩

theorem Head.Stays.trans {x y z : Head} (h : x.Stays y) (h' : y.Stays z) : x.Stays z := by
  rcases h' with ⟨h3, h4⟩ | h'
  · rcases h with ⟨h1, h2⟩ | h
    · exact .inl ⟨h3.trans h1, h4.trans h2⟩
    · exact .inr (h3.trans h)
  · exact .inr h'

theorem Head.Alike.stays {x y : Head} (h : x.Alike y) : x.Stays y := .inl ⟨h.booking, h.freePos⟩

/-- A strike booked stays booked, or is gone with all the others. -/
theorem Head.BooksOne.stays {g : Geometry} {x y z : Head} (h : x.BooksOne g y) (h' : y.Stays z) :
    x.Leaves z ∨ x.BooksOne g z := by
  rcases h' with ⟨h1, h2⟩ | h'
  · obtain ⟨k, e1, e2, e3, e4⟩ := h
    exact .inr ⟨k, h1.trans e1, e2, e3, h2.trans e4⟩
  · exact .inl (.of_empty x h')

theorem modStrike_booked (tag : Tag) (ks : List Strike) :
    (modStrike tag Strike.taken ks).map Strike.booked = ks.map Strike.booked := by
  unfold modStrike
  rw [List.map_map]
  refine List.map_congr_left fun k _ => ?_
  simp only [Function.comp_apply]
  split <;> rfl

theorem handOff_leaves (way : Way) (p : Piece) (x : LaneS) (h : HeadId) :
    (x.heads.get h).Leaves ((x.handOff way p).heads.get h) := by
  obtain ⟨c, ks, w, e, -⟩ := x.handOff_eq way p
  rw [e]
  have get : ((x.drop p.tag).heads.get h) = (x.heads.get h).without p.tag := by cases h <;> rfl
  show (x.heads.get h).Leaves ((x.drop p.tag).heads.get h)
  rw [get]
  exact ⟨List.Sublist.map _ List.filter_sublist, .inl rfl⟩

theorem handOffs_leaves (way : Way) (ps : List Piece) (x : LaneS) (h : HeadId) :
    (x.heads.get h).Leaves ((x.handOffs way ps).heads.get h) := by
  induction ps generalizing x with
  | nil => exact .refl _
  | cons p ps ih => exact (handOff_leaves way p x h).trans (ih _)

/-- One head changed leaves the other. -/
theorem setHead_leaves {x : PerHead Head} {i : HeadId} {z : Head} (hz : (x.get i).Leaves z) (h : HeadId) :
    (x.get h).Leaves ((x.set i z).get h) := by
  rw [PerHead.get_set_eq]
  split
  · rename_i e; exact e ▸ hz
  · exact .refl _

/-- Apart from a decision, a change leaves of the strikes some. -/
theorem LaneChange.leaves {i : Instr} {s : State} {l : Lane} {a b : Option Lane} {y : LaneS}
    (hc : LaneChange i s l a b y) (hi : ∀ tag, i ≠ .decisionPoint l tag) (h : HeadId) :
    (s.head l h).Leaves (y.heads.get h) := by
  cases hc with
  | rate | file | capture | leaveJam | drain | stop | resume | passPocket | choose | clearCounts | judge => exact .refl _
  | jam _ _ hy => exact .of_empty _ ((hy.heads h).booking.trans (by cases h <;> rfl))
  | start => exact .of_empty _ (by cases h <;> rfl)
  | retire | glitch => exact handOff_leaves _ _ _ h
  | clear => exact handOffs_leaves _ _ _ h
  | decide hd => exact absurd hd (hi _)
  | @fire _ j tag k =>
    refine setHead_leaves (i := j) (z := (s.head l j).fire k) ⟨?_, .inl rfl⟩ h
    simp only [Head.fire, modStrike_booked]
    exact .refl _
  | @suppress _ j tag k =>
    refine setHead_leaves (i := j) (z := (s.head l j).suppress k) ⟨?_, .inl rfl⟩ h
    simp only [Head.suppress, modStrike_booked]
    exact .refl _
  | @endStrike _ j tag k =>
    exact setHead_leaves (i := j) (z := { s.head l j with booking := (s.head l j).booking.filter fun k => !(k.tag == tag) })
      ⟨List.Sublist.map _ List.filter_sublist, .inl rfl⟩ h

theorem State.Kept.head {s t : State} (h : s.Kept t) (l : Lane) (k : HeadId) : (s.head l k).Alike (t.head l k) :=
  (h.lanes l).heads k

/-- Apart from a decision, a move leaves of each head's strikes some. -/
theorem Move.leaves {i : Instr} {a b : Option Lane} {s t : State} (hm : Move i a s b t) (hi : ∀ l tag, i ≠ .decisionPoint l tag)
    (l : Lane) (h : HeadId) : (s.head l h).Leaves (t.head l h) := by
  unfold State.head
  cases hm with
  | outer hm => rw [hm.lane]; exact .refl _
  | store hm => rw [hm.lane]; exact .refl _
  | lane hm =>
    rcases hm.change with ⟨-, hk⟩ | ⟨m, hl, ho⟩
    · exact ((hk.lanes l).heads h).stays.leaves
    · by_cases hm : l = m
      · subst hm; exact hl.leaves (hi l) h
      · exact ((ho l hm).heads h).stays.leaves
  | reset => rw [resetBlocks_lane]; exact .of_empty _ (by cases h <;> rfl)
  | power => exact .of_empty _ (by cases l <;> cases h <;> rfl)

/-- In a step that makes none of the moves that touch the strikes, a change leaves them, or none (R58). -/
theorem LaneChange.stays {m : Lane} {s : State} {l : Lane} {a b : Option Lane} {y : LaneS}
    (hc : LaneChange (.windowEnd m) s l a b y) (h : HeadId) : (s.head l h).Stays (y.heads.get h) := by
  cases hc with
  | rate | file | leaveJam | drain | passPocket | choose | clearCounts | judge => exact .refl _
  | jam _ _ hy => exact .inr ((hy.heads h).booking.trans (by cases h <;> rfl))
  | capture hi | start hi | retire hi | glitch hi | clear hi | decide hi | fire hi | suppress hi | endStrike hi
  | stop hi | resume hi => cases hi

/-- The moves of the frames that a decision places leave each head's strikes, or none (R58, R113). -/
theorem Move.stays {m : Lane} {a b : Option Lane} {s t : State} (hm : Move (.windowEnd m) a s b t) (l : Lane) (h : HeadId) :
    (s.head l h).Stays (t.head l h) := by
  unfold State.head
  cases hm with
  | outer hm => rw [hm.lane]; exact .refl _
  | store hm => rw [hm.lane]; exact .refl _
  | lane hm =>
    rcases hm.change with ⟨-, hk⟩ | ⟨m, hl, ho⟩
    · exact ((hk.lanes l).heads h).stays
    · by_cases hm : l = m
      · subst hm
        exact hl.stays h
      · exact ((ho l hm).heads h).stays
  | reset hi => cases hi
  | power hi => cases hi

/-- A decision's change of a lane leaves its strikes, or none, or books one more (R119, R120). -/
theorem LaneChange.books {m : Lane} {tag : Tag} {s : State} {l : Lane} {a b : Option Lane} {y : LaneS}
    (hc : LaneChange (.decisionPoint m tag) s l a b y) (h : HeadId) :
    (s.head l h).Stays (y.heads.get h) ∨ (s.head l h).BooksOne (s.geometry l) (y.heads.get h) := by
  cases hc with
  | rate | file | leaveJam | drain | passPocket | choose | clearCounts | judge => exact .inl (.refl _)
  | jam _ _ hy => exact .inl (.inr ((hy.heads h).booking.trans (by cases h <;> rfl)))
  | capture hi | start hi | retire hi | glitch hi | clear hi | fire hi | suppress hi | endStrike hi
  | stop hi | resume hi => cases hi
  | @decide _ tag p x y hi hp hd hk hy hb =>
    have hx : (s.head l h).Alike (x.heads.get h) := hk.heads h
    rcases hb with hb | ⟨j, k, hb, -, ht⟩
    · rw [hb]
      exact .inl hx.stays
    · rw [hb, PerHead.get_set_eq]
      split
      · rename_i hj
        subst hj
        exact .inr ⟨k, by rw [Head.book, hx.booking], by rw [← hx.freePos]; exact ht.free, ht.stop, rfl⟩
      · exact .inl hx.stays

/-- A decision books one strike of a head at most, beyond its free_pos (R118 to R120). -/
theorem decide_books {s t : State} {l : Lane} {tag : Tag} (h : execDecisionPoint l tag s = .next t) (m : Lane) (k : HeadId) :
    (s.head m k).Leaves (t.head m k) ∨ (s.head m k).BooksOne (s.geometry m) (t.head m k) := by
  cases hp : s.piece? l tag with
  | none =>
    unfold execDecisionPoint at h
    rw [hp] at h
    cases h
    exact .inl (.refl _)
  | some p =>
    by_cases hd : (s.lane l).decisionDue (s.geometry l) p = true
    · obtain ⟨q, hq, he⟩ := decisionPoint_eq hp hd
      rw [h] at he
      cases he
      have hmove : LaneMove (.decisionPoint l tag) none s none _ := .decide rfl hp hd hq
      have hrest : Moves (.windowEnd l) none
          ((s.atDecision l tag).settle l q ((s.atDecision l tag).decision l q)) none ((s.atDecision l tag).decidePiece l q) :=
        (updateFreePos_moves q).trans (placeAll_moves _ (by rfl) _)
      have hstay : (State.head ((s.atDecision l tag).settle l q ((s.atDecision l tag).decision l q)) m k).Stays
          (State.head ((s.atDecision l tag).decidePiece l q) m k) :=
        hrest.keeps (P := fun _ u => (State.head ((s.atDecision l tag).settle l q _) m k).Stays (u.head m k))
          (fun _ _ _ _ mv hs => hs.trans (mv.stays m k)) (.refl _)
      have hfirst : (s.head m k).Stays (State.head ((s.atDecision l tag).settle l q ((s.atDecision l tag).decision l q)) m k)
          ∨ (s.head m k).BooksOne (s.geometry m)
            (State.head ((s.atDecision l tag).settle l q ((s.atDecision l tag).decision l q)) m k) := by
        rcases hmove.change with ⟨-, hk⟩ | ⟨n, hl, ho⟩
        · exact .inl (hk.head m k).stays
        · by_cases hm : m = n
          · subst hm
            exact hl.books k
          · exact .inl ((ho m hm).heads k).stays
      rcases hfirst with h1 | h1
      · exact .inl (h1.trans hstay).leaves
      · exact h1.stays hstay
    · unfold execDecisionPoint at h
      simp only [hp, hd, Bool.false_eq_true, if_false] at h
      cases h
      exact .inl (.refl _)

/-- Settles O56: fires, suppressions and retirements take strikes out with their costs, and a decision books
for an undecided record. -/
theorem reservedInkStaysBalanced : Obligations.ReservedInkStaysBalanced := by
  intro s t hb ho hf h
  constructor
  · have ht := step_keeps_capture (P := fun s => ∀ l, (s.lane l).InkHolds) (Q := fun s => ∀ l, (s.lane l).TagFree)
      (fun _ _ h => h) (fun _ _ h => h) (fun _ _ _ _ _ hi m hs => m.inkHolds hi hs) (fun s l hq hs _ _ m => by
        rw [State.modLane_lane_eq]
        split
        · exact (hs l).capture (hq l)
        · exact hs m) h hf fun l => ⟨hb l, ho l⟩
    exact ⟨fun l => (ht l).balanced, fun l => (ht l).owned⟩
  · intro l k
    rcases step_moves h with rfl | ⟨i, rest, -, he, hm⟩
    · exact .inl (Head.Leaves.refl _)
    · by_cases hi : ∃ m tag, i = .decisionPoint m tag
      · obtain ⟨m, tag, rfl⟩ := hi
        exact decide_books he l k
      · exact .inl (hm.keeps (P := fun _ u => (s.head l k).Leaves (u.head l k))
          (fun _ _ _ _ mv hs => hs.trans (mv.leaves (fun m tag e => hi ⟨m, tag, e⟩) l k)) (Head.Leaves.refl (s.head l k)))

end Sys2Proof.Machine

/-! O53: the outbound queues, the reservations and the open batch stay within their places. -/

namespace Sys2Proof.Machine

/-- The outbound side holds no more than it has places, and its reservations are owned (R9, R11, R18,
R22, R23, R26). -/
structure State.OutsideFits (s : State) : Prop extends s.SlotsBalanced where
  fifo : s.link.fifo.length ≤ Config.fifoDepth
  act : ∀ l, (s.link.act.get l).length ≤ Config.actDepth
  commands : s.interp.queue.length ≤ Config.commandDepth
  batch : s.reports.batch.length < s.reports.batchLevel ∧ s.reports.batchLevel ≤ 8
  unreported : s.classOn .piece = false → s.reports.batch = []

/-- The outbound side as a step leaves it that takes frames away at most. -/
structure State.Shrinks (s t : State) : Prop where
  fifo : t.link.fifo.length ≤ s.link.fifo.length
  act : ∀ l, (t.link.act.get l).length ≤ (s.link.act.get l).length
  queued : t.reports.queued.length ≤ s.reports.queued.length
  reserved : t.reports.reserved = s.reports.reserved
  batch : t.reports.batch = s.reports.batch
  batchLevel : t.reports.batchLevel = s.reports.batchLevel
  mask : t.reports.mask = s.reports.mask
  interp : t.interp = s.interp
  phase : t.store.phase = s.store.phase

theorem State.Shrinks.fits {s t : State} (h : s.Shrinks t) (hs : s.OutsideFits) : t.OutsideFits where
  fit := by have := h.queued; have := hs.fit; rw [h.reserved]; omega
  owned := by rw [h.reserved, h.interp, h.phase]; exact hs.owned
  fifo := h.fifo.trans hs.fifo
  act l := (h.act l).trans (hs.act l)
  commands := by rw [h.interp]; exact hs.commands
  batch := by rw [h.batch, h.batchLevel]; exact hs.batch
  unreported := by unfold State.classOn; rw [h.mask, h.batch]; exact hs.unreported

/-- A grant takes one frame from one queue (R12, R13). -/
theorem arbitrate_act_length_le (s : State) (l : Lane) :
    (s.arbitrate.link.act.get l).length ≤ (s.link.act.get l).length := by
  rcases s.arbitrate_cases with h | ⟨_, ⟨j, h⟩ | h | h⟩ <;> rw [h]
  · unfold State.grantAct
    split
    · exact Nat.le_refl _
    · rename_i f fs hf
      show ((s.link.act.set j fs).get l).length ≤ _
      rw [PerLane.get_set_eq]
      split
      · rename_i hl
        rw [hl, hf]
        simp
      · exact Nat.le_refl _
  · simp
  · simp

theorem arbitrate_fifo_length_le (s : State) : s.arbitrate.link.fifo.length ≤ s.link.fifo.length := by
  rcases s.arbitrate_cases with h | ⟨_, ⟨j, h⟩ | h | h⟩ <;> rw [h]
  · simp
  · unfold State.grantPass
    split <;> simp_all
  · simp

theorem arbitrate_shrinks (s : State) : s.Shrinks s.arbitrate where
  fifo := arbitrate_fifo_length_le s
  act := arbitrate_act_length_le s
  queued := s.arbitrate_queued_le
  reserved := by simp
  batch := by simp
  batchLevel := by simp
  mask := by simp
  interp := by simp
  phase := by simp

/-- One more queued frame that the slots have room for (R23). -/
theorem queueReport_fits {s : State} (h : s.OutsideFits) (f : OutFrame) (hr : s.slotFree = true) :
    (s.queueReport f).OutsideFits := by
  refine (arbitrate_shrinks _).fits { h with fit := ?_ }
  have : s.reports.queued.length + s.reports.reserved < Config.reportSlots := by simpa [State.slotFree] using hr
  simp only [List.length_append, List.length_singleton]
  omega

theorem postNotice_fits {s : State} (h : s.OutsideFits) (d : Station) (m : NoticeMsg) : (s.postNotice d m).OutsideFits := by
  unfold State.postNotice
  dsimp only
  split
  · rename_i hr
    exact queueReport_fits (s := { s with reports := { s.reports with nextSerial := s.reports.nextSerial + 1 } }) { h with } _ hr
  · exact { h with }

/-- A batch without records, in either setting of piece reporting (R26, R27). -/
theorem State.OutsideFits.emptied {s : State} (h : s.OutsideFits) :
    State.OutsideFits { s with reports := { s.reports with batch := [] } } :=
  { h with batch := ⟨Nat.zero_lt_of_lt h.batch.1, h.batch.2⟩, unreported := fun _ => rfl }

theorem notice_fits {s : State} (h : s.OutsideFits) (k : NoticeClass) (m : NoticeMsg) : (s.notice k m).OutsideFits := by
  unfold State.notice
  split
  · exact postNotice_fits h _ m
  · exact h

/-- The batch fits once it is closed, whatever it held before (R26). -/
theorem closeBatch_fits {s : State} (h : State.OutsideFits { s with reports := { s.reports with batch := [] } }) :
    s.closeBatch.OutsideFits := by
  unfold State.closeBatch
  split
  · rename_i hb
    rw [← hb] at h
    exact h
  · exact notice_fits h _ _

theorem appendReport_fits {s : State} (h : s.OutsideFits) (r : PieceReport) : (s.appendReport r).OutsideFits := by
  unfold State.appendReport
  split
  · rename_i hp
    dsimp only
    split
    · exact closeBatch_fits h.emptied
    · rename_i hl
      exact { h with batch := ⟨by simpa using hl, h.batch.2⟩, unreported := fun ho => by cases ho.symm.trans hp }
  · exact h

/-- A response takes its own reserved slot (R21, R22). -/
theorem respond_fits {s : State} (c : Cmd) (rc : ResponseCode) (d : List Byte) (hr : 1 ≤ s.reports.reserved)
    (hf : s.reports.queued.length + s.reports.reserved ≤ Config.reportSlots)
    (h : State.OutsideFits { s with reports := { s.reports with reserved := s.reports.reserved - 1 } }) :
    (s.respond c rc d).OutsideFits := by
  refine (arbitrate_shrinks _).fits { h with fit := ?_ }
  simp only [List.length_append, List.length_singleton]
  omega

theorem setPieceReport_fits {s : State} {level : Nat} {on : Bool} (h : s.OutsideFits)
    (hb : on = false → s.pieceReporting = false ∨ s.reports.batch = []) (hl : 1 ≤ level ∧ level ≤ 8) :
    (s.setPieceReport on level).closeWhenFull.OutsideFits := by
  have empty : State.OutsideFits { s.setPieceReport on level with
      reports := { (s.setPieceReport on level).reports with batch := [] } } :=
    { h with batch := hl, unreported := fun _ => rfl }
  have off (ho : on = false) : s.reports.batch = [] := (hb ho).elim h.unreported id
  unfold State.closeWhenFull
  split
  · exact closeBatch_fits empty
  · rename_i hn
    have hp : (s.setPieceReport on level).pieceReporting = on := by
      cases on <;> simp [State.pieceReporting, State.classOn, State.setPieceReport, withPiece, NoticeClass.bit]
    rw [hp] at hn
    refine { empty with batch := ⟨?_, hl.2⟩, unreported := fun ho => off (hp.symm.trans ho) }
    show s.reports.batch.length < level
    cases on with
    | false => rw [off rfl]; exact hl.1
    | true =>
      have hn : ¬level ≤ s.reports.batch.length := fun hle => hn (decide_eq_true hle)
      exact Nat.lt_of_not_le hn

/-- A move of the outbound side keeps it within its places. -/
theorem Outer.fits {s t : State} (h : Outer s t) (hs : s.OutsideFits) : t.OutsideFits := by
  cases h with
  | aside h =>
    refine State.Shrinks.fits ⟨?_, fun l => ?_, ?_, h.reserved, h.batch, h.batchLevel, h.mask, h.interp, h.phase⟩ hs
    · rw [h.fifo]
    · rw [h.act]
    · rw [h.queued]
  | @joinAct l m h =>
    refine (arbitrate_shrinks _).fits { hs with act := fun k => ?_ }
    show ((s.link.act.set l (s.link.act.get l ++ [s.actFrame l m])).get k).length ≤ _
    rw [PerLane.get_set_eq]
    split
    · rw [List.length_append]; exact h
    · exact hs.act k
  | emptyAct l =>
    refine { hs with act := fun k => ?_ }
    show ((s.link.act.set l []).get k).length ≤ _
    rw [PerLane.get_set_eq]
    split
    · exact Nat.zero_le _
    · exact hs.act k
  | offer u =>
    unfold State.offer
    split
    · rename_i hr
      exact (arbitrate_shrinks _).fits { hs with fifo := by simpa using hr }
    · exact { hs with }
  | postNotice d m => exact postNotice_fits hs d m
  | closeBatch => exact closeBatch_fits hs.emptied
  | appendReport r => exact appendReport_fits hs r
  | sent => exact (arbitrate_shrinks _).fits { hs with }
  | @complete c rc d h =>
    have owned : s.reports.reserved = s.interp.queue.length + 1 + s.store.phase.commits := by
      have := hs.owned
      rwa [h] at this
    refine respond_fits c rc d ?_ hs.fit { hs with fit := ?_, owned := ?_ }
    · show 1 ≤ s.reports.reserved
      omega
    · have := hs.fit
      show s.reports.queued.length + (s.reports.reserved - 1) ≤ _
      omega
    · show s.reports.reserved - 1 = s.interp.queue.length + 0 + s.store.phase.commits
      omega
  | @take c cs h hq =>
    refine { hs with owned := ?_, commands := ?_ }
    · have := hs.owned
      rw [h, hq] at this
      show s.reports.reserved = cs.length + 1 + s.store.phase.commits
      simpa using this
    · have := hs.commands
      rw [hq] at this
      exact Nat.le_of_succ_le this
  | accept c h =>
    obtain ⟨hq, hr⟩ : s.interp.queue.length < Config.commandDepth ∧ s.slotFree = true := by simpa [State.canAccept] using h
    have hr : s.reports.queued.length + s.reports.reserved < Config.reportSlots := by simpa [State.slotFree] using hr
    refine { hs with fit := hr, owned := ?_, commands := by simpa [State.accept] using hq }
    have := hs.owned
    simp only [State.accept, List.length_append, List.length_singleton]
    omega
  | setMask m h =>
    exact { hs with unreported := fun ho => (h ho).elim hs.unreported id }
  | setPieceReport on h hl => exact setPieceReport_fits hs h hl
  | answerReset c h => exact queueReport_fits hs _ h

/-- A move of the Table Store keeps the reservations owned: one for each committed write (R22). -/
theorem StoreMove.fits {s t : State} (h : StoreMove s t) (hs : s.OutsideFits) : t.OutsideFits := by
  cases h with
  | enter h => rw [enterEntry_eq]; exact { hs with }
  | past h he =>
    have fit := hs.fit
    have owned := hs.owned
    rcases pastEntry_cases s h with ⟨p, mark, rest, hp, -, -, e⟩ | ⟨p, mark, hp, -, e⟩ | ⟨p, q, rest, hp, -, -, e⟩
      | ⟨p, q, hp, -, e⟩ <;> rw [e] <;> rw [hp] at owned <;> simp only [Phase.commits] at owned
    · exact { hs with owned := by cases mark <;> exact owned }
    · refine respond_fits _ _ _ (by simp only [State.setPhase]; omega) fit { hs with fit := ?_, owned := ?_ }
      · simp only [State.setPhase]; omega
      · simp only [State.setPhase, Phase.commits]; omega
    · exact { hs with owned := owned }
    · refine respond_fits _ _ _ (by simp only [State.setPhase]; omega) fit { hs with fit := ?_, owned := ?_ }
      · simp only [State.setPhase]; omega
      · simp only [State.setPhase, Phase.commits]; omega
  | phase p commits =>
    refine { hs with owned := ?_ }
    have := hs.owned
    rwa [← commits] at this
  | @commit c w es h hw he =>
    refine { hs with owned := ?_ }
    have owned := hs.owned
    rw [h] at owned
    simp only [State.beginProgramming, State.setPhase]
    cases hp : s.store.phase <;> simp [hp, Phase.open?] at hw <;> simp [hp, Phase.commits, Phase.committed] at owned ⊢ <;> omega

/-- A reset leaves queues and reservations empty, and batch_level as it was (R34). -/
theorem resetBlocks_fits {s : State} (hs : s.OutsideFits) : s.resetBlocks.OutsideFits := by
  have r := resetBlocks_reset s
  refine { fit := ?_, owned := ?_, fifo := ?_, act := ?_, commands := ?_, batch := ?_, unreported := fun _ => r.batch }
  · rw [r.queued, r.reserved]; exact Nat.zero_le _
  · rw [r.reserved, r.interp, r.phase]; rfl
  · rw [r.link]; exact hs.fifo
  · rw [r.link]; exact hs.act
  · rw [r.interp]; exact Nat.zero_le _
  · rw [r.batch, r.batchLevel]; exact ⟨Nat.zero_lt_of_lt hs.batch.1, hs.batch.2⟩

/-- The outbound side at power-on (R17, R35). -/
theorem powered_fits (s : State) : s.powered.OutsideFits where
  fit := Nat.zero_le _
  owned := rfl
  fifo := Nat.zero_le _
  act l := by cases l <;> exact Nat.zero_le _
  commands := Nat.zero_le _
  batch := ⟨Nat.succ_pos 7, Nat.le_refl 8⟩
  unreported _ := rfl

/-- Every move keeps the outbound side within its places. -/
theorem Move.fits {i : Instr} {a b : Option Lane} {s t : State} (h : Move i a s b t) (hs : s.OutsideFits) : t.OutsideFits := by
  cases h with
  | outer h => exact h.fits hs
  | store h => exact h.fits hs
  | lane h =>
    rw [h.within]
    exact { hs with }
  | reset hi => exact resetBlocks_fits hs
  | power hi => exact powered_fits s

end Sys2Proof.Machine

/-! O53: scan slots, track lists, booking lists and open writes stay within their places. -/

namespace Sys2Proof.Machine

/-! ### Slots held (R70 to R73) -/

/-- Equal jobs hold as many slots (R73). -/
theorem slotsHeld_same {s t : State} (h : t.scorer = s.scorer) : t.slotsHeld = s.slotsHeld := by
  unfold State.slotsHeld
  rw [h]

/-- The slots held once a lane's scoring queue has been replaced. -/
theorem slotsHeld_setQueue (s : State) (l : Lane) (q : List Job) :
    State.slotsHeld { s with scorer := { s.scorer with queues := s.scorer.queues.set l q } } + (s.scorer.queues.get l).length
      = s.slotsHeld + q.length := by
  cases l <;> simp [State.slotsHeld, PerLane.get, PerLane.set] <;> omega

variable (s : State) (l : Lane) (tag : Tag)

theorem grantSlot_slotsHeld_le : (s.grantSlot l tag).slotsHeld ≤ s.slotsHeld + 1 := by
  unfold State.grantSlot
  split
  · exact Nat.le_succ _
  split
  · exact Nat.le_succ _
  · rename_i p _ _ n _
    have := slotsHeld_setQueue s l (s.scorer.queues.get l ++ [makeJob l (s.geometry l) (s.lane l) p n])
    rw [List.length_append, List.length_singleton] at this
    show State.slotsHeld { s with scorer := { s.scorer with queues := _ } } ≤ _
    omega

/-- A record that asks takes a free slot or none (R70). -/
theorem askSlot_slotsHeld_le (h : s.slotsHeld ≤ Config.scanSlots) : (s.askSlot l tag).slotsHeld ≤ Config.scanSlots := by
  unfold State.askSlot
  split
  · exact (grantSlot_slotsHeld_le s l tag).trans (by omega)
  · exact h

theorem passSlotOn_slotsHeld_le : s.passSlotOn.slotsHeld ≤ s.slotsHeld + 1 := by
  unfold State.passSlotOn
  split
  · exact Nat.le_succ _
  · exact grantSlot_slotsHeld_le _ _ _

theorem passSlotsOn_slotsHeld_le (n : Nat) : (s.passSlotsOn n).slotsHeld ≤ s.slotsHeld + n := by
  induction n generalizing s with
  | zero => exact Nat.le_refl _
  | succ n ih =>
    have h1 := passSlotOn_slotsHeld_le s
    have h2 := ih s.passSlotOn
    show (s.passSlotOn.passSlotsOn n).slotsHeld ≤ _
    omega

/-- As many slots are passed on as the jobs that left held (R72). -/
theorem releaseSlots_slotsHeld_le (q : List Job) (h : q.length ≤ (s.scorer.queues.get l).length) :
    (State.passSlotsOn { s with scorer := { s.scorer with queues := s.scorer.queues.set l q } }
      ((s.scorer.queues.get l).length - q.length)).slotsHeld ≤ s.slotsHeld := by
  have h1 := slotsHeld_setQueue s l q
  have h2 := passSlotsOn_slotsHeld_le { s with scorer := { s.scorer with queues := s.scorer.queues.set l q } }
    ((s.scorer.queues.get l).length - q.length)
  omega

theorem dropJob_slotsHeld_le : (s.dropJob l tag).slotsHeld ≤ s.slotsHeld :=
  releaseSlots_slotsHeld_le s l _ (List.length_filter_le _ _)

theorem abandonScan_slotsHeld_le : (s.abandonScan l tag).slotsHeld ≤ s.slotsHeld := by
  unfold State.abandonScan
  split
  case h_4 => exact dropJob_slotsHeld_le _ l tag
  all_goals exact Nat.le_refl _

theorem settleScan_slotsHeld_le : (s.settleScan l tag).slotsHeld ≤ s.slotsHeld := by
  unfold State.settleScan
  split
  case h_3 => exact dropJob_slotsHeld_le _ l tag
  all_goals exact Nat.le_refl _

theorem withdrawLane_slotsHeld_le : (s.withdrawLane l).slotsHeld ≤ s.slotsHeld := by
  have h := releaseSlots_slotsHeld_le
    { s.modLane l fun x => { x with list := x.list.map jamScan } with
      scan := { s.scan with waitList := s.scan.waitList.filter fun e => !(e.1 == l) } } l [] (Nat.zero_le _)
  exact h

theorem askReady_slotsHeld_le (h : s.slotsHeld ≤ Config.scanSlots) : (s.askReady l).slotsHeld ≤ Config.scanSlots := by
  unfold State.askReady
  generalize ((s.lane l).list.filter (sampleReady (s.lane l))).map Piece.tag = tags
  induction tags generalizing s with
  | nil => exact h
  | cons tag tags ih => exact ih _ (askSlot_slotsHeld_le s l tag h)

/-- The engine's job held its slot in the queue already (R73, R80). -/
theorem takeJob_slotsHeld_le : s.takeJob.slotsHeld ≤ s.slotsHeld := by
  unfold State.takeJob State.engineTakes
  split
  · exact Nat.le_refl _
  rename_i he
  split
  · rename_i m _
    split
    · exact Nat.le_refl _
    · rename_i j js hq
      have h := slotsHeld_setQueue s m js
      rw [hq, List.length_cons] at h
      have h2 : State.slotsHeld { s with scorer := { queues := s.scorer.queues.set m js, engine := some j, lastServed := m } }
          = State.slotsHeld { s with scorer := { s.scorer with queues := s.scorer.queues.set m js } } + 1 := by
        simp [State.slotsHeld, he]
      refine Nat.le_trans (Nat.le_of_eq h2) ?_
      omega
  · exact Nat.le_refl _

theorem reopen_slotsHeld_le (p : Piece) : (s.reopen l p).slotsHeld ≤ s.slotsHeld := by
  refine (abandonScan_slotsHeld_le _ l p.tag).trans (Nat.le_of_eq (slotsHeld_same ?_))
  unfold State.countShingle
  split <;> rfl

theorem handOff_scorer (way : Way) (p : Piece) : (s.handOff l way p).scorer = s.scorer := by
  rw [handOff_eq_modLane]
  rfl

theorem handOffAll_scorer (way : Way) : (s.handOffAll l way).scorer = s.scorer := by
  rw [handOffAll_eq]

theorem settle_scorer (p : Piece) (d : Decision) : (s.settle l p d).scorer = s.scorer := by
  unfold State.settle
  split
  · unfold State.countLate
    split <;> rfl
  · unfold State.countUnstruck
    dsimp only
    split <;> split <;> rfl

theorem scored_scorer (j : Job) : (s.scored j).scorer = s.scorer := by
  unfold State.scored
  dsimp only
  split
  · unfold State.advanceAudit State.offerAudit
    dsimp only
    split
    · rfl
    split
    · rfl
    split <;> rfl
  · rfl

variable {s} in
/-- The engine's slot is passed on (R72, R99). -/
theorem finish_slotsHeld_le {j : Job} (h : s.scorer.engine = some j) :
    ({ s.scored j with scorer := { (s.scored j).scorer with engine := none } }.passSlotOn).slotsHeld ≤ s.slotsHeld := by
  refine (passSlotOn_slotsHeld_le _).trans (Nat.le_of_eq ?_)
  simp [State.slotsHeld, scored_scorer, h]

variable {s l tag}

/-- A move of a lane keeps the slots within their eight (R73). -/
theorem LaneMove.slotsHeld_le {i : Instr} {a b : Option Lane} {t : State} (h : LaneMove i a s b t)
    (hs : s.slotsHeld ≤ Config.scanSlots) : t.slotsHeld ≤ Config.scanSlots := by
  cases h with
  | alike | rate | file | capture | measure | leaveJam | drain | stop | start | resume | fire | suppress | endStrike
  | passPocket | choose | clearCounts | judge => exact hs
  | reopen => exact (reopen_slotsHeld_le s _ _).trans hs
  | abandon => exact (abandonScan_slotsHeld_le s _ _).trans hs
  | ask => exact askSlot_slotsHeld_le s _ _ hs
  | askReady => exact askReady_slotsHeld_le s _ hs
  | @jam _ _ l => exact (withdrawLane_slotsHeld_le (s.modLane l LaneS.jammed) l).trans hs
  | retire => rw [slotsHeld_same (handOff_scorer s _ _ _)]; exact hs
  | glitch => rw [slotsHeld_same (handOff_scorer _ _ _ _)]; exact hs
  | clear => rw [slotsHeld_same (handOffAll_scorer s _ _)]; exact hs
  | decide => rw [slotsHeld_same (settle_scorer _ _ _ _)]; exact (settleScan_slotsHeld_le _ _ _).trans hs
  | finish h => exact (finish_slotsHeld_le h).trans hs
  | takeJob => exact (takeJob_slotsHeld_le s).trans hs

/-! ### Track lists and booking lists (R40, R120) -/

/-- A lane's track list and booking lists are within their places (R40, R120). -/
structure LaneS.Fits (x : LaneS) : Prop where
  list : x.list.length ≤ Config.listDepth
  booking : ∀ h, (x.heads.get h).booking.length ≤ Config.bookingDepth

/-- A lane with no longer a list, and heads that book no more. -/
theorem LaneS.Fits.of_le {x y : LaneS} (h : x.Fits) (hl : y.list.length ≤ x.list.length)
    (hb : ∀ j, (y.heads.get j).booking.length ≤ (x.heads.get j).booking.length) : y.Fits :=
  ⟨hl.trans h.list, fun j => (hb j).trans (h.booking j)⟩

theorem LaneS.Kept.fits {x y : LaneS} (h : x.Kept y) (hx : x.Fits) : y.Fits :=
  hx.of_le (Nat.le_of_eq h.list.length_eq.symm) fun j => by rw [(h.heads j).booking]

theorem LaneS.Fits.handOff {x : LaneS} (h : x.Fits) (way : Way) (p : Piece) : (x.handOff way p).Fits := by
  obtain ⟨c, ks, w, e, -⟩ := x.handOff_eq way p
  rw [e]
  refine h.of_le (List.length_filter_le _ _) fun j => ?_
  cases j <;> exact List.length_filter_le _ _

theorem LaneS.Fits.handOffs {x : LaneS} (h : x.Fits) (way : Way) (ps : List Piece) : (x.handOffs way ps).Fits := by
  induction ps generalizing x with
  | nil => exact h
  | cons p ps ih => exact ih (h.handOff way p)

/-- One head replaced by one whose booking list is within its places. -/
theorem LaneS.Fits.setHead {x : LaneS} (h : x.Fits) (j : HeadId) {z : Head} (hz : z.booking.length ≤ Config.bookingDepth) :
    LaneS.Fits { x with heads := x.heads.set j z } := by
  refine ⟨h.list, fun k => ?_⟩
  show ((x.heads.set j z).get k).booking.length ≤ _
  rw [PerHead.get_set_eq]
  split
  · exact hz
  · exact h.booking k

/-- A decision books into a list with room (R118). -/
theorem LaneS.Fits.decide {x y : LaneS} {g : Geometry} {tag : Tag} (h : x.Fits) (hy : x.Settled tag y)
    (hb : x.Books g tag y) : y.Fits := by
  obtain ⟨f, -, hl⟩ := hy.list
  have list : y.list.length ≤ Config.listDepth := by rw [hl, modTagged_length]; exact h.list
  rcases hb with hh | ⟨j, k, hh, -, ht⟩
  · exact ⟨list, by rw [hh]; exact h.booking⟩
  · refine ⟨list, ?_⟩
    rw [hh]
    exact (h.setHead j (z := Head.book g k (x.heads.get j)) (by simpa [Head.book] using ht.room)).booking

theorem modStrike_length (tag : Tag) (f : Strike → Strike) (ks : List Strike) : (modStrike tag f ks).length = ks.length := by
  simp [modStrike]

theorem LaneChange.fits {i : Instr} {a b : Option Lane} {y : LaneS} (h : LaneChange i s l a b y) (hx : (s.lane l).Fits) :
    y.Fits := by
  cases h with
  | rate | file | leaveJam | drain | stop | resume | clearCounts | judge => exact ⟨hx.list, hx.booking⟩
  | capture hi h =>
    refine ⟨?_, hx.booking⟩
    simp only [LaneS.canCapture, Bool.and_eq_true, decide_eq_true_eq] at h
    show ((s.lane l).list ++ [_]).length ≤ _
    rw [List.length_append]
    exact h.1.2
  | jam hi h hy => exact hy.fits ⟨hx.list, fun j => by cases j <;> exact Nat.zero_le _⟩
  | start hi h => exact ⟨hx.list, fun j => by cases j <;> exact Nat.zero_le _⟩
  | retire hi hp hd hk => exact hx.handOff _ _
  | glitch hi hp he hd => exact LaneS.Fits.handOff (x := { s.lane l with eye := .armed }) ⟨hx.list, hx.booking⟩ _ _
  | clear hi h => exact hx.handOffs _ _
  | decide hi hp hd hk hy hb =>
    have hx' := hk.fits ⟨by rw [modTagged_length]; exact hx.list, hx.booking⟩
    exact hx'.decide hy hb
  | @fire _ j tag k hi hk hs => exact hx.setHead j ((Nat.le_of_eq (modStrike_length _ _ _)).trans (hx.booking j))
  | @suppress _ j tag k hi hk hs => exact hx.setHead j ((Nat.le_of_eq (modStrike_length _ _ _)).trans (hx.booking j))
  | @endStrike _ j tag k hi hk hs => exact hx.setHead j ((List.length_filter_le _ _).trans (hx.booking j))
  | passPocket hp => exact ⟨by rw [modTagged_length]; exact hx.list, hx.booking⟩
  | choose hp hk hc => exact ⟨by rw [modTagged_length, modTagged_length]; exact hx.list, hx.booking⟩

theorem LaneS.resetOwn_fits (x : LaneS) : x.resetOwn.Fits := by
  refine ⟨?_, fun j => by cases j <;> exact Nat.zero_le _⟩
  rw [x.resetOwn_values.2.1]
  exact Nat.zero_le _

/-! ### The inside of the part -/

/-- Track lists, booking lists, scan slots and the open write are within their places. -/
structure State.InsideFits (s : State) : Prop where
  lanes : ∀ l, (s.lane l).Fits
  slots : s.slotsHeld ≤ Config.scanSlots
  staged : s.store.phase.Bounded

/-- A response leaves the Table Store. -/
theorem respond_store (c : Cmd) (rc : ResponseCode) (d : List Byte) : (s.respond c rc d).store = s.store := by simp

/-- A move of the Table Store keeps an open write within its count (R165). -/
theorem StoreMove.bounded {t : State} (h : StoreMove s t) (hs : s.store.phase.Bounded) : t.store.phase.Bounded := by
  cases h with
  | enter h => rwa [enterEntry_phase]
  | past h he =>
    rcases pastEntry_cases s h with ⟨p, mark, rest, -, -, -, e⟩ | ⟨p, mark, -, -, e⟩ | ⟨p, q, rest, -, -, -, e⟩
      | ⟨p, q, -, -, e⟩ <;> rw [e]
    · cases mark <;> exact fun w hw => by cases hw
    · rw [respond_store]
      exact fun w hw => by cases hw
    · exact fun w hw => by cases hw
    · rw [respond_store]
      exact fun w hw => by cases hw
  | phase p commits outer nested table bounded => exact bounded hs
  | commit h hw he =>
    intro w hw
    simp only [State.beginProgramming, State.setPhase] at hw
    unfold Phase.committed at hw
    split at hw <;> cases hw

/-- A reset leaves one slot at most, the engine's (R76). -/
theorem resetBlocks_slotsHeld (s : State) : s.resetBlocks.slotsHeld ≤ Config.scanSlots := by
  unfold State.slotsHeld
  rw [(resetBlocks_reset s).scorer]
  cases s.scorer.engine <;> simp [Config.scanSlots]

theorem Move.insideFits {i : Instr} {a b : Option Lane} {t : State} (h : Move i a s b t) (hs : s.InsideFits) : t.InsideFits := by
  cases h with
  | outer h =>
    refine ⟨fun m => ?_, ?_, ?_⟩
    · rw [h.lane]; exact hs.lanes m
    · rw [slotsHeld_same h.inner.scorer]; exact hs.slots
    · rw [h.inner.phase]; exact hs.staged
  | store h =>
    refine ⟨fun m => ?_, ?_, h.bounded hs.staged⟩
    · rw [h.lane]; exact hs.lanes m
    · rw [slotsHeld_same h.keeps.2.2.1]; exact hs.slots
  | lane h =>
    refine ⟨fun m => ?_, h.slotsHeld_le hs.slots, by rw [h.within]; exact hs.staged⟩
    rcases h.change with ⟨-, h⟩ | ⟨l, hl, ho⟩
    · exact (h.lanes m).fits (hs.lanes m)
    · by_cases hm : m = l
      · subst hm; exact hl.fits (hs.lanes m)
      · exact (ho m hm).fits (hs.lanes m)
  | reset =>
    refine ⟨fun m => ?_, resetBlocks_slotsHeld s, ?_⟩
    · rw [resetBlocks_lane]; exact (s.lane m).resetOwn_fits
    · rw [(resetBlocks_reset s).phase]; exact fun w hw => by cases hw
  | power =>
    refine ⟨fun m => ?_, Nat.zero_le _, fun w hw => by cases hw⟩
    cases m <;> exact ⟨Nat.zero_le _, fun j => by cases j <;> exact Nat.zero_le _⟩

/-- The places of the part: those of the outbound side, and those of the inside. -/
theorem fits_iff_places (s : State) : s.SlotsBalanced ∧ s.WithinCapacity ↔ s.OutsideFits ∧ s.InsideFits := by
  constructor
  · rintro ⟨h1, h2⟩
    exact ⟨{ h1, h2 with }, ⟨fun l => ⟨h2.list l, h2.booking l⟩, h2.slots, h2.staged⟩⟩
  · rintro ⟨h1, h2⟩
    exact ⟨h1.toSlotsBalanced,
      { h1 with list := fun l => (h2.lanes l).list, booking := fun l => (h2.lanes l).booking, slots := h2.slots, staged := h2.staged }⟩

/-- Settles O53: every move keeps the outbound side and the inside within their places. -/
theorem slotsAndPlacesStayBalanced : Obligations.SlotsAndPlacesStayBalanced := by
  intro s t h1 h2 h
  rw [fits_iff_places]
  refine step_keeps (P := fun s => s.OutsideFits ∧ s.InsideFits) ?_ ?_ h ((fits_iff_places s).1 ⟨h1, h2⟩)
  · rintro s rest ⟨h1, h2⟩
    exact ⟨{ h1 with }, ⟨h2.lanes, h2.slots, h2.staged⟩⟩
  · rintro i a s b t hm ⟨h1, h2⟩
    exact ⟨hm.fits h1, hm.insideFits h2⟩

end Sys2Proof.Machine

/-! O54 fails: a scoring queue may hold a job that names the other lane. -/

namespace Sys2Proof.Machine

/-- A QUEUED record with its length. -/
def strayPiece : Piece := { captured 0 0 with length := some 100, scan := .queued }

/-- A job of the record's tag that names lane B. -/
def strayJob : Job :=
  { lane := .b, tag := 0, lead := 0, length := 100, m := 0, windows := ⟨[], [], [], []⟩
    refs := ⟨⟨0, 0⟩, ⟨0, 0⟩, ⟨0, 0⟩, ⟨0, 0⟩⟩ }

/-- Lane A runs with the QUEUED record, and the job stands in lane A's scoring queue; the engine takes next. -/
def strayState : State :=
  { State.reset with
    lanes := ⟨{ LaneS.initial with state := .running, list := [strayPiece], nextTag := 1 }, LaneS.initial⟩
    scorer := { queues := ⟨[strayJob], []⟩, engine := none, lastServed := .b }
    pending := [.engineTake] }

/-- The records of the lanes: one in lane A, none in lane B. -/
theorem strayState_list {l : Lane} {p : Piece} (hp : p ∈ (strayState.lane l).list) : l = .a ∧ p = strayPiece := by
  cases l with
  | a => exact ⟨rfl, List.mem_singleton.1 hp⟩
  | b => cases hp

theorem strayState_scansRight : strayState.ScansRight where
  distinct l := by cases l <;> decide
  waitOnce := .nil
  waiting l tag := by
    refine ⟨nofun, ?_⟩
    rintro ⟨p, hp, -, hs⟩
    obtain ⟨-, rfl⟩ := strayState_list hp
    cases hs
  jobOnce l := by cases l <;> decide
  queued l tag := by
    cases l with
    | a =>
      constructor
      · intro ht
        cases List.mem_singleton.1 ht
        exact ⟨strayPiece, List.mem_singleton.2 rfl, rfl, rfl⟩
      · rintro ⟨p, hp, rfl, -⟩
        rw [List.mem_singleton.1 hp]
        exact List.mem_singleton.2 rfl
    | b => exact ⟨nofun, fun ⟨p, hp, _⟩ => nomatch hp⟩
  scoring l p hp hs := by
    obtain ⟨-, rfl⟩ := strayState_list hp
    cases hs
  measured l p hp _ := by
    obtain ⟨-, rfl⟩ := strayState_list hp
    rfl
  decided l p hp hd := by
    obtain ⟨-, rfl⟩ := strayState_list hp
    cases hd
  resting l ha p hp := by
    obtain ⟨rfl, -⟩ := strayState_list hp
    cases ha
  covered l st p he _ := by cases l <;> cases he

/-- Refutes O54: nothing says that a job stands in its own lane's queue, so the engine can take a job that
names lane B for a record of lane A, which is then SCORING without an engine's job of its lane. -/
theorem not_waitListAndJobsStayRight : ¬Obligations.WaitListAndJobsStayRight := by
  intro h
  have free (l : Lane) : (strayState.lane l).TagFree := by
    intro p hp
    obtain ⟨rfl, rfl⟩ := strayState_list hp
    decide
  obtain ⟨ht, -⟩ := h strayState { strayState with pending := [] }.takeJob strayState_scansRight free rfl
  obtain ⟨j, hj, hl, -⟩ := ht.scoring .a { strayPiece with scan := .scoring } (List.mem_singleton.2 rfl) rfl
  cases hj
  cases hl

end Sys2Proof.Machine

/-! The tier 1 statements: the queue of waiting steps, and the part at power-on. -/

namespace Sys2Proof.Machine

/-- Settles O1: the two cases of the queue of waiting steps. -/
theorem stepRunsFrontOfQueue : Obligations.StepRunsFrontOfQueue := by
  constructor
  · intro i rest s h
    unfold step
    rw [h]
  · intro s h
    unfold step
    rw [h]

/-! ### The part at power-on -/

theorem initial_counters_zero : ∀ n ∈ LaneCounters.zero.values, n = 0 := by decide

theorem initial_geometry_zero : ∀ n ∈ Geometry.initial.fields, n = 0 := by decide

theorem get_replicate {α : Type} {n : Nat} (x : α) (k : Fin n) : (Vector.replicate n x).get k = x := by
  simp [Vector.get_eq_getElem]

/-- Every lane starts from the same initial values (R61, R76, R102, R115, R130, R152). -/
theorem reset_lane (l : Lane) : State.reset.lane l = .initial := by cases l <;> rfl

/-- Settles O12: every block and every table is written out in the state of power-on. -/
theorem powerOnTakesInitialValues : Obligations.PowerOnTakesInitialValues := by
  refine ⟨⟨fun _ => rfl, rfl, rfl, rfl, fun l => ?_, rfl, rfl, fun c => ?_, rfl, rfl, rfl, rfl, rfl, rfl⟩, ?_, rfl, rfl,
    fun l => ?_, fun l => ?_, rfl, fun m => ?_, rfl, fun l h => ?_⟩
  · rw [reset_lane]
    refine ⟨rfl, rfl, rfl, rfl, rfl, rfl, fun b => ?_, rfl, rfl, fun h => ?_, fun k => ?_, initial_counters_zero, rfl,
      fun m => ?_, rfl⟩
    · cases b <;> exact ⟨rfl, rfl, rfl⟩
    · cases h <;> rfl
    · exact get_replicate _ k
    · cases m <;> rfl
  · exact get_replicate _ c
  · exact fun n => get_replicate _ n
  · cases l <;> exact ⟨rfl, rfl, initial_geometry_zero⟩
  · cases l <;> exact ⟨fun r => get_replicate _ r, fun k => get_replicate _ k⟩
  · cases m <;> rfl
  · cases l <;> cases h <;> rfl

/-- An empty part owes no scan and no slot (R76, R79). -/
theorem reset_scansRight : State.reset.ScansRight where
  distinct l := by cases l <;> exact .nil
  waitOnce := .nil
  waiting l tag := ⟨nofun, fun ⟨p, hp, _⟩ => by cases l <;> cases hp⟩
  jobOnce l := by cases l <;> exact .nil
  queued l tag := ⟨fun h => (by cases l <;> cases h), fun ⟨p, hp, _⟩ => by cases l <;> cases hp⟩
  scoring l p hp := by cases l <;> cases hp
  measured l p hp := by cases l <;> cases hp
  decided l p hp := by cases l <;> cases hp
  resting l _ p hp := by cases l <;> cases hp
  covered l st p he := by cases l <;> cases he

theorem initial_strikesOwned : LaneS.initial.StrikesOwned := ⟨.nil, fun h k hk => by cases h <;> cases hk⟩

theorem initial_stateHolds : LaneS.initial.StateHolds := ⟨rfl, fun _ => rfl, fun _ => ⟨rfl, rfl, rfl⟩, nofun⟩

/-- Settles O59: power-on is a move, which meets what every move keeps, and its lanes are empty. -/
theorem powerOnMeetsTheInvariants : Obligations.PowerOnMeetsTheInvariants := by
  have places : State.reset.SlotsBalanced ∧ State.reset.WithinCapacity := by
    refine (fits_iff_places _).2 ⟨powered_fits State.reset, ⟨fun l => ?_, Nat.zero_le _, fun w hw => by cases hw⟩⟩
    rw [reset_lane]
    exact ⟨Nat.zero_le _, fun h => by cases h <;> exact Nat.zero_le _⟩
  refine ⟨⟨fun l f hf => (by cases l <;> cases hf), fun f hf => absurd hf List.not_mem_nil⟩, fun _ => ⟨fun l => by cases l <;> rfl, rfl, rfl⟩, places.1, places.2,
    .of_ready rfl .nil (Nat.zero_le _), fun l h => ?_, fun l b => ?_, reset_pocketsFit State.reset, reset_scansRight,
    fun l => ?_⟩
  · cases l <;> cases h <;> exact .of_empty rfl rfl
  · cases l <;> cases b <;> exact ⟨.nil, nofun⟩
  · rw [reset_lane]
    exact ⟨initial_strikesOwned, LaneS.initial_countsRight, fun p hp => absurd hp List.not_mem_nil, .nil,
      (fun hr => nomatch hr), initial_stateHolds⟩

end Sys2Proof.Machine

/-! O3: how every command answers wrong lengths and fields out of range. -/

namespace Sys2Proof.Machine

/-! ### Operands out of range (R20, R175) -/

variable {b : Byte}

theorem laneOf_eq_none (h : 1 < b.toNat) : laneOf b = none := by
  unfold laneOf
  split <;> first | omega | rfl

theorem headOf_eq_none (h : 1 < b.toNat) : headOf b = none := by
  unfold headOf
  split <;> first | omega | rfl

theorem switchOf_eq_none (h : 1 < b.toNat) : switchOf b = none := by
  unfold switchOf
  split <;> first | omega | rfl

theorem cornerOf_eq_none (h : 3 < b.toNat) : cornerOf b = none := by
  unfold cornerOf
  split <;> first | omega | rfl

theorem groupOf_eq_none (h : 5 < b.toNat) : groupOf b = none := by
  unfold groupOf
  split <;> first | omega | rfl

theorem tableOf_eq_none (h : 5 < b.toNat) : tableOf b = none := by
  unfold tableOf
  split <;> first | omega | rfl

theorem laneSetOf_eq_none (h : b.toNat = 0 ∨ 3 < b.toNat) : laneSetOf b = none := by
  unfold laneSetOf
  split <;> first | omega | rfl

theorem within_eq_none {low high n : Nat} (h : n < low ∨ high < n) : within low high n = none := by
  unfold within
  exact if_neg (by omega)

theorem below_eq_none {bound n : Nat} (h : bound ≤ n) : below bound n = none := by
  unfold below
  exact dif_neg (by omega)

theorem selection_eq_none {n : Nat} {bs : List Byte} (h : 2 ^ n ≤ beNat bs) : selection n bs = none := by
  unfold selection
  exact if_neg (by omega)

/-- Every number but those of the lockable tables is refused (R171). -/
theorem lockable_eq_none (h : b.toNat ≠ 0 ∧ b.toNat ≠ 2 ∧ b.toNat ≠ 5) : (tableOf b).filter Table.lockable = none := by
  unfold tableOf
  split <;> first | omega | rfl

/-! ### The arguments of each command (12.2) -/

/-- A reader of arguments takes `n` bytes, and refuses what the command of a code calls out of range. -/
structure Reads {α : Type} (parse : List Byte → Args α) (code : Byte) (n : Nat) : Prop where
  length : ∀ bs : List Byte, bs.length ≠ n → parse bs = .wrongLength
  range : ∀ bs, fieldOutOfRange code bs → parse bs = .outOfRange

theorem noArgs_length (bs : List Byte) (h : bs.length ≠ 0) : noArgs bs = .wrongLength := by
  unfold noArgs
  split <;> [exact absurd rfl h; rfl]

/-- A command without arguments has no field that could be out of range. -/
theorem Reads.noArgs {code : Byte} (h : ∀ bs, ¬fieldOutOfRange code bs) : Reads Machine.noArgs code 0 :=
  ⟨noArgs_length, fun bs hb => absurd hb (h bs)⟩

theorem addressArgs_reads : Reads addressArgs 0x01 3 where
  length bs h := by unfold addressArgs; split <;> [exact absurd rfl h; rfl]
  range
    | [l, p, m], h => by
      refine addressArgs_outOfRange ?_
      have h : l.toNat = 255 ∨ p.toNat = 255 ∨ 3 < m.toNat := h
      exact h.imp (fun h => BitVec.eq_of_toNat_eq h) (.imp_left fun h => BitVec.eq_of_toNat_eq h)

theorem countersArg_reads : Reads countersArg 0x02 1 where
  length bs h := by unfold countersArg; split <;> [exact absurd rfl h; rfl]
  range
    | [b], h => by
      have h : 15 < b.toNat := h
      simp [countersArg, selection_eq_none (n := 4) (bs := [b]) (by simp [beNat]; omega), inRange]

theorem trackArgs_reads : Reads trackArgs 0x04 3 where
  length bs h := by unfold trackArgs; split <;> [exact absurd rfl h; rfl]
  range
    | [l, i, n], h => by
      have h : 1 < l.toNat ∨ 23 < i.toNat ∨ n.toNat = 0 ∨ 4 < n.toNat := h
      rcases h with h | h | h
      · simp [trackArgs, laneOf_eq_none h, inRange]
      · simp [trackArgs, within_eq_none (.inr h), inRange]
      · simp [trackArgs, within_eq_none (low := 1) (high := 4) (n := n.toNat) (by omega), inRange]

theorem maskArg_reads : Reads maskArg 0x05 1 where
  length bs h := by unfold maskArg; split <;> [exact absurd rfl h; rfl]
  range
    | [], h => h.elim
    | _ :: _, h => h.elim

theorem pieceReportArgs_reads : Reads pieceReportArgs 0x06 2 where
  length bs h := by unfold pieceReportArgs; split <;> [exact absurd rfl h; rfl]
  range
    | [sw, n], h => by
      have h : 1 < sw.toNat ∨ n.toNat = 0 ∨ 8 < n.toNat := h
      rcases h with h | h
      · simp [pieceReportArgs, switchOf_eq_none h, inRange]
      · simp [pieceReportArgs, within_eq_none (low := 1) (high := 8) (n := n.toNat) (by omega), inRange]

theorem latchesArg_reads : Reads latchesArg 0x08 2 where
  length bs h := by unfold latchesArg; split <;> [exact absurd rfl h; rfl]
  range
    | [h, l], hr => by
      have hr : 7 < h.toNat := hr
      simp [latchesArg, selection_eq_none (n := 11) (bs := [h, l]) (by rw [beNat_two]; omega), inRange]

/-- A lane alone, for any of the commands that take one. -/
theorem laneArg_reads {code : Byte} (h : ∀ bs, fieldOutOfRange code bs → ∃ l, bs = [l] ∧ 1 < l.toNat) :
    Reads laneArg code 1 where
  length bs h := by unfold laneArg; split <;> [exact absurd rfl h; rfl]
  range bs hb := by
    obtain ⟨l, rfl, hl⟩ := h bs hb
    simp [laneArg, laneOf_eq_none hl, inRange]

/-- A lane and a pocket, for either sweep command. -/
theorem pocketArgs_reads {code : Byte}
    (h : ∀ bs, fieldOutOfRange code bs → ∃ l k, bs = [l, k] ∧ (1 < l.toNat ∨ 9 < k.toNat)) : Reads pocketArgs code 2 where
  length bs h := by unfold pocketArgs; split <;> [exact absurd rfl h; rfl]
  range bs hb := by
    obtain ⟨l, k, rfl, hl | hk⟩ := h bs hb
    · simp [pocketArgs, laneOf_eq_none hl, inRange]
    · simp [pocketArgs, below_eq_none hk, inRange]

theorem auditArg_reads : Reads auditArg 0x18 2 where
  length bs h := by unfold auditArg; split <;> [exact absurd rfl h; rfl]
  range
    | [h, l], hr => by
      have hr : 1000 < h.toNat * 256 + l.toNat := hr
      simp [auditArg, beNat_two, within_eq_none (.inr hr), inRange]

theorem auditReadArgs_reads : Reads auditReadArgs 0x19 2 where
  length bs h := by unfold auditReadArgs; split <;> [exact absurd rfl h; rfl]
  range
    | [k, n], h => by
      have h : 3 < k.toNat ∨ 7 < n.toNat := h
      rcases h with h | h
      · simp [auditReadArgs, cornerOf_eq_none h, inRange]
      · simp [auditReadArgs, within_eq_none (.inr h), inRange]

theorem refillArgs_reads : Reads refillArgs 0x20 5 where
  length bs h := by unfold refillArgs; split <;> [exact absurd rfl h; rfl]
  range
    | [l, h, a, b, c], hr => by
      have hr : 1 < l.toNat ∨ 1 < h.toNat ∨ 1000000 < (a.toNat * 256 + b.toNat) * 256 + c.toNat := hr
      rcases hr with hr | hr | hr
      · simp [refillArgs, laneOf_eq_none hr, inRange]
      · simp [refillArgs, headOf_eq_none hr, inRange]
      · simp [refillArgs, beNat_three, within_eq_none (.inr hr), inRange]

theorem dateArgs_reads : Reads dateArgs 0x21 5 where
  length bs h := by unfold dateArgs; split <;> [exact absurd rfl h; rfl]
  range
    | [y, z, m, d, h], hr => by
      have hr : y.toNat * 256 + z.toNat < 2000 ∨ 2099 < y.toNat * 256 + z.toNat ∨ m.toNat = 0 ∨ 12 < m.toNat ∨ d.toNat = 0
        ∨ 31 < d.toNat ∨ 23 < h.toNat := hr
      have bad : (y.toNat * 256 + z.toNat < 2000 ∨ 2099 < y.toNat * 256 + z.toNat) ∨ (m.toNat < 1 ∨ 12 < m.toNat)
        ∨ (d.toNat < 1 ∨ 31 < d.toNat) ∨ h.toNat < 0 ∨ 23 < h.toNat := by omega
      rcases bad with hb | hb | hb | hb <;> simp [dateArgs, beNat_two, within_eq_none hb, inRange]

theorem snapshotArgs_reads : Reads snapshotArgs 0x30 2 where
  length bs h := by unfold snapshotArgs; split <;> [exact absurd rfl h; rfl]
  range
    | [g, x], h => by
      have h : 5 < g.toNat ∨ 1 < x.toNat := h
      rcases h with h | h
      · simp [snapshotArgs, groupOf_eq_none h, inRange]
      · simp [snapshotArgs, switchOf_eq_none h, inRange]

theorem openArgs_reads : Reads openArgs 0x38 3 where
  length bs h := by unfold openArgs; split <;> [exact absurd rfl h; rfl]
  range
    | [t, n, ls], h => by
      have h : 5 < t.toNat ∨ n.toNat = 0 ∨ 32 < n.toNat ∨ ls.toNat = 0 ∨ 3 < ls.toNat := h
      rcases h with h | h | h | h
      · simp [openArgs, tableOf_eq_none h, inRange]
      · simp [openArgs, within_eq_none (low := 1) (high := 32) (n := n.toNat) (by omega), inRange]
      · simp [openArgs, within_eq_none (.inr h), inRange]
      · simp [openArgs, laneSetOf_eq_none h, inRange]

theorem lockArg_reads : Reads lockArg 0x3F 1 where
  length bs h := by unfold lockArg; split <;> [exact absurd rfl h; rfl]
  range
    | [t], h => by
      have h : t.toNat ≠ 0 ∧ t.toNat ≠ 2 ∧ t.toNat ≠ 5 := h
      simp [lockArg, lockable_eq_none h, inRange]

theorem readArgs_reads : Reads readArgs 0x40 3 where
  length bs h := by unfold readArgs; split <;> [exact absurd rfl h; rfl]
  range
    | [t, f, n], h => by
      have h : 5 < t.toNat ∨ n.toNat = 0 ∨ 8 < n.toNat := h
      rcases h with h | h
      · simp [readArgs, tableOf_eq_none h, inRange]
      · simp [readArgs, within_eq_none (low := 1) (high := 8) (n := n.toNat) (by omega), inRange]

/-! ### Every command -/

/-- The completion that a command is, with the reader of its arguments (R20). -/
theorem command_completion {i : Instr} {code : Byte} {n : Nat} (h : commandOf i = some (code, n)) :
    ∃ (α : Type) (parse : List Byte → Args α) (act : State → Cmd → α → State),
      (∀ s, exec i s = .next (s.completion code parse act)) ∧ Reads parse code n := by
  cases i <;> cases h
  case linkAddress => exact ⟨_, _, _, fun _ => rfl, addressArgs_reads⟩
  case linkCountersClear => exact ⟨_, _, _, fun _ => rfl, countersArg_reads⟩
  case laneTrackRead => exact ⟨_, _, _, fun _ => rfl, trackArgs_reads⟩
  case noticeMask => exact ⟨_, _, _, fun _ => rfl, maskArg_reads⟩
  case pieceReport => exact ⟨_, _, _, fun _ => rfl, pieceReportArgs_reads⟩
  case clearIndications => exact ⟨_, _, _, fun _ => rfl, latchesArg_reads⟩
  case laneStart => exact ⟨_, _, _, fun _ => rfl, laneArg_reads fun | [l], hb => ⟨l, rfl, hb⟩⟩
  case laneStop => exact ⟨_, _, _, fun _ => rfl, laneArg_reads fun | [l], hb => ⟨l, rfl, hb⟩⟩
  case jamClear => exact ⟨_, _, _, fun _ => rfl, laneArg_reads fun | [l], hb => ⟨l, rfl, hb⟩⟩
  case pieceAudit => exact ⟨_, _, _, fun _ => rfl, auditArg_reads⟩
  case auditRead => exact ⟨_, _, _, fun _ => rfl, auditReadArgs_reads⟩
  case inkRefill => exact ⟨_, _, _, fun _ => rfl, refillArgs_reads⟩
  case dieDate => exact ⟨_, _, _, fun _ => rfl, dateArgs_reads⟩
  case sweepStart => exact ⟨_, _, _, fun _ => rfl, pocketArgs_reads fun | [l, k], hb => ⟨l, k, rfl, hb⟩⟩
  case sweepDone => exact ⟨_, _, _, fun _ => rfl, pocketArgs_reads fun | [l, k], hb => ⟨l, k, rfl, hb⟩⟩
  case countSnapshot => exact ⟨_, _, _, fun _ => rfl, snapshotArgs_reads⟩
  case tableOpen => exact ⟨_, _, _, fun _ => rfl, openArgs_reads⟩
  case tableLock => exact ⟨_, _, _, fun _ => rfl, lockArg_reads⟩
  case tableRead => exact ⟨_, _, _, fun _ => rfl, readArgs_reads⟩
  all_goals exact ⟨_, _, _, fun _ => rfl, .noArgs fun | [], hb => hb | _ :: _, hb => hb⟩

/-- An unknown code is answered BAD_COMMAND (R20.1). -/
theorem unknownCommand_next {s : State} {c : Cmd} (he : s.interp.executing = some c) (hc : c.code ∉ commandCodes) :
    exec .unknownCommand s = .next (s.complete c .badCommand []) := by
  show execUnknownCommand s = _
  unfold execUnknownCommand
  rw [he]
  dsimp only
  rw [if_neg (by simpa using hc)]

/-- Settles O3: the unknown code, and every command's reader of its arguments. -/
theorem failedChecksLeaveThePartAlone : Obligations.FailedChecksLeaveThePartAlone := by
  refine ⟨⟨fun s c he hc => ?unknown, fun i code n s c hi he hl => ?length⟩, fun i code n s c hi he hr => ?range⟩
  case unknown => exact .of_next he (unknownCommand_next he.running hc)
  case length =>
    obtain ⟨α, parse, act, hx, hp⟩ := command_completion hi
    exact .of_next he ((hx s).trans (congrArg _ (State.completion_wrongLength act he (hp.length _ hl))))
  case range =>
    obtain ⟨α, parse, act, hx, hp⟩ := command_completion hi
    exact .of_next he ((hx s).trans (completion_outOfRange_next he (hp.range _ hr)))

end Sys2Proof.Machine

/-! O5 fails, and O6: what STATUS_READ and LANE_TRACK_READ answer. -/

namespace Sys2Proof.Machine

/-! ### The status block while a nested write programs -/

/-- A write of one entry to a table. -/
def writeOf (t : Table) : Programming :=
  { table := t, total := 1, applied := 0, todo := [], commit := ⟨⟨0, 0⟩, 0x3A, 0, []⟩ }

/-- STATUS_READ executes while a Monitor Profile write is nested in an Ink Profile write. -/
def nestedState : State :=
  { State.reset with
    interp := { queue := [], executing := some ⟨⟨0, 0⟩, 0x03, 0, []⟩ }
    store := { State.reset.store with phase := .nestedProgramming (writeOf .ink) (writeOf .monitor) } }

/-- Refutes O5: while a nested write programs, the block carries the table and the figures of the nested
write, and not those of the outer one. -/
theorem not_statusReadAnswersStatusBlock : ¬Obligations.StatusReadAnswersStatusBlock := by
  intro h
  have filed : nestedState.FramesFiled :=
    ⟨fun l f hf => (by cases l <;> cases hf), fun f hf => absurd hf List.not_mem_nil⟩
  obtain ⟨-, -, -, -, table, -⟩ := h nestedState ⟨⟨0, 0⟩, 0x03, 0, []⟩ ⟨rfl, rfl, filed⟩ rfl
  revert table
  decide

/-! ### Track records (R33) -/

/-- A condition as a bit of a byte. -/
def bitNat (b : Bool) (n : Nat) : Nat := if b then n else 0

/-- The thirteen bytes of a finding. -/
theorem findingBytes_length (f : Option Finding) : (findingBytes f).length = 13 := by
  cases f <;> simp [findingBytes, beBytes]

/-- The fields before the finding. -/
def Piece.trackHead (p : Piece) : List Byte :=
  tagBytes p.tag ++ posBytes p.lead ++ lengthBytes p.length
    ++ [byte (bitsByte [p.shingled, p.overlength, p.lateFound, p.staleRef, p.multi, p.strikeStart.isSome]),
        byte p.scan.toNat, optByte p.scan.reason?]

/-- The fields after the finding. -/
def Piece.trackTail (p : Piece) : List Byte :=
  [optByte (p.gate.map GateSetting.toNat), optByte (p.stream.map Stream.toNat),
      optByte (p.route.map RouteClass.toNat), byte p.cancel.toNat, optByte p.cancel.reason?]
    ++ posBytes (p.strikeStart.getD 0)
    ++ [optByte (p.pocket.map Fin.val), optByte (p.disposition.map fun d => d.index.val)]
    ++ beBytes 2 p.value

theorem trackRecord_eq (p : Piece) : trackRecord p = p.trackHead ++ findingBytes p.finding ++ p.trackTail := by
  simp [trackRecord, Piece.trackHead, Piece.trackTail]

theorem Piece.trackHead_length (p : Piece) : p.trackHead.length = 10 := by
  simp [Piece.trackHead, tagBytes, posBytes, lengthBytes, beBytes]

theorem Piece.trackTail_length (p : Piece) : p.trackTail.length = 12 := by
  simp [Piece.trackTail, posBytes, beBytes]

/-- A stretch of the record within the fields before the finding. -/
theorem trackRecord_head (p : Piece) {i n : Nat} (h : i + n ≤ 10) :
    ((trackRecord p).drop i).take n = (p.trackHead.drop i).take n := by
  rw [trackRecord_eq, List.append_assoc, List.drop_append_of_le_length (by rw [p.trackHead_length]; omega),
    List.take_append_of_le_length (by rw [List.length_drop, p.trackHead_length]; omega)]

/-- A stretch of the record within the finding. -/
theorem trackRecord_finding (p : Piece) {i n : Nat} (h : i + n ≤ 13) :
    ((trackRecord p).drop (10 + i)).take n = ((findingBytes p.finding).drop i).take n := by
  rw [trackRecord_eq, List.append_assoc, ← p.trackHead_length, List.drop_length_add_append,
    List.drop_append_of_le_length (by rw [findingBytes_length]; omega),
    List.take_append_of_le_length (by rw [List.length_drop, findingBytes_length]; omega)]

/-- The record from a field after the finding on. -/
theorem trackRecord_tail (p : Piece) (i : Nat) : (trackRecord p).drop (23 + i) = p.trackTail.drop i := by
  have hl : (p.trackHead ++ findingBytes p.finding).length = 23 := by
    rw [List.length_append, p.trackHead_length, findingBytes_length]
  rw [trackRecord_eq, ← hl, List.drop_length_add_append]

theorem trackArgs_valid (l : Lane) {i n : Nat} (hi : i ≤ 23) (h1 : 1 ≤ n) (h4 : n ≤ 4) :
    trackArgs [byte (laneNat l), byte i, byte n] = .valid (l, i, n) := by
  have ei : within 0 23 (byte i).toNat = some i := within_eq_some.2 (by rw [byte_toNat (by omega)]; omega)
  have en : within 1 4 (byte n).toNat = some n := within_eq_some.2 (by rw [byte_toNat (by omega)]; omega)
  simp [trackArgs, inRange, ei, en]

/-- The data of LANE_TRACK_READ: how many records there are at the asked positions, and those (R33). -/
theorem trackData_eq (s : State) (l : Lane) (i n : Nat) :
    s.trackData l i n
      = [byte (laneNat l), byte i, byte (min n ((s.lane l).list.length - i))]
        ++ (((s.lane l).list.drop i).take n).flatMap trackRecord := by
  simp [State.trackData, LaneS.recordsFrom, List.flatMap]

/-- Settles O6: the record in its three stretches, and the completion with the arguments read. -/
theorem laneTrackReadAnswersRecords : Obligations.LaneTrackReadAnswersRecords := by
  refine ⟨fun p => ?record, fun s c l i n he hi h1 h4 ha => ?read⟩
  case read =>
    have h := completion_next (act := fun s c a => s.complete c .done (s.trackData a.1 a.2.1 a.2.2)) he
      (ha ▸ trackArgs_valid l hi h1 h4)
    rw [← trackData_eq]
    exact .of_next he h
  case record =>
    refine ⟨?_, ?_, ?_, fun hf => ?_, fun f hf => ⟨fun h hh => ?_, fun hh => ⟨?_, ?_, ?_, ?_⟩, ?_⟩, ?_, ?_, ?_⟩
    · rw [trackRecord_eq, List.length_append, List.length_append, p.trackHead_length, findingBytes_length, p.trackTail_length]
    · refine (trackRecord_head p (i := 0) (n := 8) (by omega)).trans ?_
      have bits : bitsByte [p.shingled, p.overlength, p.lateFound, p.staleRef, p.multi, p.strikeStart.isSome]
          = bitNat p.shingled 1 + bitNat p.overlength 2 + bitNat p.lateFound 4 + bitNat p.staleRef 8 + bitNat p.multi 16
            + bitNat p.strikeStart.isSome 32 := by
        simp [bitsByte, bitNat, Nat.mul_add, Nat.add_assoc]
      show tagBytes p.tag ++ posBytes p.lead ++ lengthBytes p.length ++ [byte (bitsByte _)] = _
      rw [bits]
      rfl
    · refine (trackRecord_head p (i := 8) (n := 2) (by omega)).trans ?_
      show [byte p.scan.toNat, optByte p.scan.reason?] = _
      cases p.scan with
      | failed r => cases r <;> rfl
      | collecting | slotWait | queued | scoring | scored => rfl
    · rw [trackRecord_finding p (i := 0) (n := 13) (by omega), hf]
      rfl
    · rw [trackRecord_finding p (i := 0) (n := 10) (by omega), hf, findingBytes, hh]
      obtain ⟨corner, profile, kind, score, run, start, category⟩ := h
      cases category <;> rfl
    · rw [trackRecord_finding p (i := 0) (n := 10) (by omega), hf, findingBytes]
      cases hr : f.result with
      | hit h => exact absurd hr (hh h)
      | noData | noMark | ambiguous => rfl
    · intro hr; rw [hr]; rfl
    · intro hr; rw [hr]; rfl
    · intro hr; rw [hr]; rfl
    · rw [trackRecord_finding p (i := 10) (n := 3) (by omega), hf]
      have bits : bitsByte [f.precancel, f.multi, f.staleRef]
          = bitNat f.precancel 1 + bitNat f.multi 2 + bitNat f.staleRef 4 := by
        simp [bitsByte, bitNat, Nat.mul_add, Nat.add_assoc]
      show beBytes 2 f.value ++ [byte (bitsByte _)] = _
      rw [bits]
      rfl
    · rw [trackRecord_tail p 0]
      show [optByte _, optByte _, optByte _] = _
      cases p.gate <;> cases p.stream <;> cases p.route <;> rfl
    · rw [trackRecord_tail p 3]
      show [byte p.cancel.toNat, optByte p.cancel.reason?] = _
      cases p.cancel with
      | suppressed r => cases r <;> rfl
      | nothing | booked | struck | missed | notRequired => rfl
    · rw [trackRecord_tail p 5]
      show posBytes (p.strikeStart.getD 0) ++ [optByte _, optByte _] ++ beBytes 2 p.value = _
      cases p.strikeStart <;> cases p.pocket <;> cases p.disposition <;> rfl

end Sys2Proof.Machine

/-! O7 and O8: the audit commands and TABLE_READ. -/

namespace Sys2Proof.Machine

/-! ### The audit block (R78) -/

theorem auditReadArgs_valid (k : Corner) {n : Nat} (hn : n ≤ 7) : auditReadArgs [byte k.toNat, byte n] = .valid (k, n) := by
  have e : within 0 7 (byte n).toNat = some n := within_eq_some.2 (by rw [byte_toNat (by omega)]; omega)
  simp [auditReadArgs, inRange, e]

theorem auditArg_valid {n : Nat} (hn : n ≤ 1000) : auditArg (beBytes 2 n) = .valid n := by
  have e : within 0 1000 (beNat (beBytes 2 n)) = some n :=
    within_eq_some.2 (by rw [beNat_beBytes_two (by omega)]; omega)
  show inRange (within 0 1000 (beNat (beBytes 2 n))) = _
  rw [e]
  rfl

/-- The fields of an audit block before its samples. -/
def Audit.head (t : Audit) (k : Corner) (n : Nat) : List Byte :=
  let r := t.corners.get k
  let refs := t.refs.ofCorner k
  [byte (laneNat t.lane)] ++ tagBytes t.tag
    ++ [byte t.m, byte t.result.toNat, optByte (t.result.hit?.map fun h => h.corner.toNat)]
    ++ beBytes 2 refs.ph ++ beBytes 2 refs.fl ++ r.ph.bytes ++ r.fl.bytes
    ++ [byte (switchNat r.isVoid), optByte (r.hit.map Fin.val), byte (chunkOf (t.windows.get k) n).length]

/-- The chosen corner's samples of a chunk. -/
def Audit.samples (t : Audit) (k : Corner) (n : Nat) : List Byte := (chunkOf (t.windows.get k) n).flatMap sampleBytes

theorem Audit.block_eq (t : Audit) (k : Corner) (n : Nat) : t.block k n = t.head k n ++ t.samples k n := by
  simp [Audit.block, Audit.head, Audit.samples, List.flatMap]

theorem Audit.head_length (t : Audit) (k : Corner) (n : Nat) : (t.head k n).length = 23 := by
  simp [Audit.head, tagBytes, beBytes, ChannelResult.bytes]

theorem chunkOf_length (w : List (Option Sample)) (n : Nat) : (chunkOf w n).length = min 25 (w.length - 25 * n) := by
  simp [chunkOf]

theorem sampleBytes_length (x : Option Sample) : (sampleBytes x).length = 4 := by cases x <;> simp [sampleBytes, beBytes]

theorem Audit.samples_length (t : Audit) (k : Corner) (n : Nat) :
    (t.samples k n).length = 4 * min 25 ((t.windows.get k).length - 25 * n) := by
  rw [← chunkOf_length, Audit.samples]
  induction chunkOf (t.windows.get k) n with
  | nil => rfl
  | cons x xs ih =>
    rw [List.flatMap_cons, List.length_append, ih, sampleBytes_length, List.length_cons]
    omega

theorem byte_switchNat (b : Bool) : byte (switchNat b) = if b then 1 else 0 := by cases b <;> rfl

theorem optByte_fin (x : Option (Fin 8)) :
    optByte (x.map Fin.val) = match x with | some i => byte i.val | none => 0xFF := by cases x <;> rfl

theorem optByte_hit (r : FindingResult) :
    optByte (r.hit?.map fun h => h.corner.toNat) = match r with | .hit h => byte h.corner.toNat | _ => 0xFF := by
  cases r <;> rfl

/-- The 23 bytes before the samples, in the order of 12.2. -/
theorem Audit.head_eq (t : Audit) (k : Corner) (n : Nat) :
    let r := t.corners.get k
    let refs := match k with | .c1 => t.refs.aTop | .c2 => t.refs.aBottom | .c3 => t.refs.bTop | .c4 => t.refs.bBottom
    let results := fun (x : ChannelResult) => beBytes 2 x.score ++ [byte x.run, byte x.first, byte x.missing]
    t.head k n
      = [byte (laneNat t.lane)] ++ beBytes 2 t.tag.toNat
        ++ [byte t.m, byte t.result.toNat, match t.result with | .hit h => byte h.corner.toNat | _ => 0xFF]
        ++ beBytes 2 refs.ph ++ beBytes 2 refs.fl ++ results r.ph ++ results r.fl
        ++ [if r.isVoid then 1 else 0, match r.hit with | some i => byte i.val | none => 0xFF,
          byte (min 25 ((t.windows.get k).length - 25 * n))] := by
  intro r refs results
  have he : t.refs.ofCorner k = refs := by cases k <;> rfl
  unfold Audit.head
  simp only [chunkOf_length, byte_switchNat, optByte_fin, optByte_hit, he]
  rfl

/-- Settles O7: each completion with its arguments read, and the block in its two stretches. -/
theorem auditCommandsReadAndSet : Obligations.AuditCommandsReadAndSet := by
  refine ⟨fun s c k n he hn ha => ⟨fun hs => ?empty, fun t hs => ⟨?full, ?length, ?head, ?samples⟩⟩,
    fun s c n he hn ha => ?set, fun s c he ha => ?release⟩
  case empty =>
    refine .of_next he ((completion_next he (ha ▸ auditReadArgs_valid k hn)).trans ?_)
    dsimp only
    rw [hs]
  case full =>
    refine .of_next he ((completion_next he (ha ▸ auditReadArgs_valid k hn)).trans ?_)
    dsimp only
    rw [hs]
  case length => rw [t.block_eq, List.length_append, t.head_length, t.samples_length]
  case head =>
    rw [t.block_eq, List.take_left' (t.head_length k n)]
    exact t.head_eq k n
  case samples =>
    rw [t.block_eq, List.drop_left' (t.head_length k n)]
    exact congrArg (List.flatMap · _) (funext fun x => by cases x <;> rfl)
  case set =>
    have h := completion_next (act := fun s c n => (s.setAudit n).done c) he (ha ▸ auditArg_valid hn)
    exact .of_next he h
  case release => exact .of_next he (completion_next he (congrArg noArgs ha))

/-! ### Table rows (R172) -/

theorem readArgs_valid (t : Table) {i n : Nat} (hi : i ≤ 255) (h1 : 1 ≤ n) (h8 : n ≤ 8) :
    readArgs [byte t.toNat, byte i, byte n] = .valid (t, i, n) := by
  have en : within 1 8 (byte n).toNat = some n := within_eq_some.2 (by rw [byte_toNat (by omega)]; omega)
  simp [readArgs, inRange, byte_toNat (n := i) (by omega), en]

/-- The data of TABLE_READ: how many rows stand at the asked indices, how many there are, and those (R172). -/
theorem tableData_eq (s : State) (t : Table) (first n : Nat) :
    s.tableData t first n
      = [byte t.toNat, byte first, byte (min n ((s.tableRows t).length - first))] ++ beBytes 2 (s.tableRows t).length
        ++ (((s.tableRows t).drop first).take n).flatten := by
  simp [State.tableData]

/-- A row without a status of its own is 0, the table byte and the entry's layout (12.2, 12.4). -/
theorem geometryRow_eq (l : Lane) (g : Geometry) :
    geometryRow l g = (if g.loaded then 1 else 0) :: 2 :: (Entry.geometry l g).layout := by
  unfold geometryRow
  cases g.loaded <;> rfl

/-- Settles O8: the completion with the arguments read, and the rows table by table. -/
theorem tableReadAnswersEntries : Obligations.TableReadAnswersEntries := by
  refine fun s c t first n he hf h1 h8 ha => ⟨?read, ?rows, ?length⟩
  case read =>
    have h := completion_next (act := fun s c a => s.complete c .done (s.tableData a.1 a.2.1 a.2.2)) he
      (ha ▸ readArgs_valid t hf h1 h8)
    rw [← tableData_eq]
    exact .of_next he h
  case rows =>
    cases t with
    | ink | signature => rfl
    | geometry => simp only [State.tableRows, geometryRow_eq]; rfl
    | stacker => rfl
    | monitor => simp only [State.tableRows]; rfl
    | die =>
      simp only [State.tableRows, byte_switchNat]
      cases s.date <;> rfl
  case length => cases t <;> simp [State.tableRows, stackerRows]

end Sys2Proof.Machine

/-! O9, O11, O42 and O44: notices and the batch, ink and date, the counters read and cleared. -/

namespace Sys2Proof.Machine

/-- Settles O11: what a notice does, whether or not a slot is free. -/
theorem noticeIsQueuedOrLost : Obligations.NoticeIsQueuedOrLost := by
  intro s k m hf
  obtain ⟨hquiet, hreports, hacts, hpass, -⟩ := State.notice_spec hf k m
  exact ⟨hquiet, hreports, hacts, hpass⟩

/-! ### Mask and batch (R25, R27) -/

/-- A change of the reports' settings, blind to the traffic. -/
def State.withSettings (s : State) (mask : BitVec 8) (level : Nat) : State :=
  { s with reports := { s.reports with mask := mask, batchLevel := level } }

/-- A command that closes the open batch, takes its settings and answers (R25 to R27). -/
theorem CompletesAfter.of_closeBatch {i : Instr} {s : State} {c : Cmd} {d : List Byte} (hf : s.FramesFiled)
    (mask : BitVec 8) (level : Nat) (h : exec i s = .next ((s.closeBatch.withSettings mask level).complete c .done d)) :
    CompletesAfter i s c s.batchFrames (s.batchClosed.withSettings mask level) .done d := by
  obtain ⟨hquiet, hreports, hacts, hpass, hfiled⟩ := State.closeBatch_spec hf
  refine .of_next h ?_ hreports hacts hpass ⟨hfiled.act, hfiled.reports⟩
  rw [State.eq_withTraffic hquiet]
  rfl

theorem batchClosed_settings (s : State) :
    s.batchClosed.reports.mask = s.reports.mask ∧ s.batchClosed.reports.batchLevel = s.reports.batchLevel := by
  unfold State.batchClosed State.noted
  repeat' split
  all_goals exact ⟨rfl, rfl⟩

theorem closeBatch_settings {s : State} (hf : s.FramesFiled) :
    s.closeBatch.reports.mask = s.reports.mask ∧ s.closeBatch.reports.batchLevel = s.reports.batchLevel := by
  rw [State.eq_withTraffic (State.closeBatch_spec hf).1]
  exact batchClosed_settings s

theorem batchClosed_with (s : State) (mask : BitVec 8) :
    { s.batchClosed with reports := { s.batchClosed.reports with mask := mask } }
      = s.batchClosed.withSettings mask s.reports.batchLevel := by
  rw [← (batchClosed_settings s).2]
  rfl

theorem pieceReporting_eq (s : State) : s.pieceReporting = s.reports.mask.getLsbD 7 := rfl

theorem pieceOn_eq (m : BitVec 8) : pieceOn m = m.getLsbD 7 := rfl

theorem and_7F_piece (m : BitVec 8) : (m &&& 0x7F#8).getLsbD 7 = false := by simp
theorem or_80_piece (m : BitVec 8) : (m ||| 0x80#8).getLsbD 7 = true := by simp
theorem and_7F_eq {m : BitVec 8} (h : m.getLsbD 7 = false) : m &&& 0x7F#8 = m := by
  refine BitVec.eq_of_getLsbD_eq fun i hi => ?_
  interval_cases i <;> simp_all

theorem pieceReportArgs_valid (on : Bool) {n : Nat} (h1 : 1 ≤ n) (h8 : n ≤ 8) :
    pieceReportArgs [byte (switchNat on), byte n] = .valid (on, n) := by
  have en : within 1 8 (byte n).toNat = some n := within_eq_some.2 (by rw [byte_toNat (by omega)]; omega)
  simp [pieceReportArgs, inRange, en, switchOf_eq_some.2 rfl]

section Settings

variable {s : State} {c : Cmd} {m : BitVec 8} {n : Nat}

/-- NOTICE_MASK turns PIECE off. -/
theorem noticeMask_off (he : Executing s 0x05 c) (ha : c.args = [m]) (hs : s.reports.mask.getLsbD 7 = true)
    (hm : m.getLsbD 7 = false) :
    CompletesAfter .noticeMask s c s.batchFrames { s.batchClosed with reports := { s.batchClosed.reports with mask := m } }
      .done [s.reports.mask] := by
  rw [batchClosed_with]
  refine .of_closeBatch he.filed m _ ((completion_next he (congrArg maskArg ha)).trans ?_)
  rw [State.closeWhenOff, pieceReporting_eq, pieceOn_eq, hs, hm, ← (closeBatch_settings he.filed).2]
  rfl

/-- NOTICE_MASK leaves PIECE as it is, or turns it on. -/
theorem noticeMask_kept (he : Executing s 0x05 c) (ha : c.args = [m])
    (h : s.reports.mask.getLsbD 7 = false ∨ m.getLsbD 7 = true) :
    Completes .noticeMask s c { s with reports := { s.reports with mask := m } } .done [s.reports.mask] := by
  refine .of_next he ((completion_next he (congrArg maskArg ha)).trans ?_)
  rw [State.closeWhenOff, if_neg (by rw [pieceReporting_eq, pieceOn_eq]; obtain h | h := h <;> (simp only [h]; simp))]
  rfl

/-- PIECE_REPORT turns piece reporting off. -/
theorem pieceReport_off (he : Executing s 0x06 c) (ha : pieceReportArgs c.args = .valid (false, n))
    (hs : s.reports.mask.getLsbD 7 = true) :
    CompletesAfter .pieceReport s c s.batchFrames
      { s.batchClosed with reports := { s.batchClosed.reports with mask := s.reports.mask &&& 0x7F#8, batchLevel := n } }
      .done [] := by
  refine .of_closeBatch he.filed _ n ((completion_next he ha).trans ?_)
  rw [State.closeWhenOff, pieceReporting_eq, hs, ← (closeBatch_settings he.filed).1]
  unfold State.closeWhenFull
  rw [if_neg (by rw [pieceReporting_eq]; simp [State.setPieceReport, withPiece])]
  rfl

/-- PIECE_REPORT finds piece reporting off and leaves it so. -/
theorem pieceReport_stays_off (he : Executing s 0x06 c) (ha : pieceReportArgs c.args = .valid (false, n))
    (hs : s.reports.mask.getLsbD 7 = false) :
    Completes .pieceReport s c { s with reports := { s.reports with batchLevel := n } } .done [] := by
  refine .of_next he ((completion_next he ha).trans ?_)
  have e : s.setPieceReport false n = { s with reports := { s.reports with batchLevel := n } } := by
    simp only [State.setPieceReport, withPiece, Bool.false_eq_true, if_false, and_7F_eq hs]
  rw [State.closeWhenOff, pieceReporting_eq, hs]
  simp only [Bool.false_and, Bool.false_eq_true, if_false, e]
  unfold State.closeWhenFull
  rw [if_neg (by rw [pieceReporting_eq]; simp only [hs]; simp)]
  rfl

/-- PIECE_REPORT turns piece reporting on, or leaves it on, with a batch that is full for the new level. -/
theorem pieceReport_on_full (he : Executing s 0x06 c) (ha : pieceReportArgs c.args = .valid (true, n))
    (hb : n ≤ s.reports.batch.length) :
    CompletesAfter .pieceReport s c (s.setPieceReport true n).batchFrames (s.setPieceReport true n).batchClosed .done [] := by
  have hf : (s.setPieceReport true n).FramesFiled := ⟨he.filed.act, he.filed.reports⟩
  obtain ⟨hquiet, hreports, hacts, hpass, hfiled⟩ := State.closeBatch_spec hf
  refine .of_next ((completion_next he ha).trans ?_) hquiet hreports hacts hpass hfiled
  rw [State.closeWhenOff, if_neg (by simp)]
  unfold State.closeWhenFull
  rw [if_pos (by rw [pieceReporting_eq]; simpa [State.setPieceReport, withPiece] using hb)]
  rfl

/-- PIECE_REPORT turns piece reporting on, or leaves it on, with a batch below the new level. -/
theorem pieceReport_on_room (he : Executing s 0x06 c) (ha : pieceReportArgs c.args = .valid (true, n))
    (hb : s.reports.batch.length < n) : Completes .pieceReport s c (s.setPieceReport true n) .done [] := by
  refine .of_next he ((completion_next he ha).trans ?_)
  rw [State.closeWhenOff, if_neg (by simp)]
  unfold State.closeWhenFull
  rw [if_neg (by simp [State.setPieceReport, Nat.not_le.2 hb])]
  rfl

theorem reportFlush_closes (he : Executing s 0x07 c) (ha : c.args = []) :
    CompletesAfter .reportFlush s c s.batchFrames s.batchClosed .done [] := by
  obtain ⟨hquiet, hreports, hacts, hpass, hfiled⟩ := State.closeBatch_spec he.filed
  exact .of_next (completion_next he (congrArg noArgs ha)) hquiet hreports hacts hpass hfiled

end Settings

/-- Settles O9: the three commands by whether PIECE goes off and whether the batch is full. -/
theorem maskAndBatchCommandsCloseTheBatch : Obligations.MaskAndBatchCommandsCloseTheBatch :=
  ⟨fun _ _ _ he ha => ⟨fun h => noticeMask_off he ha h.1 h.2, noticeMask_kept he ha⟩,
    fun _ _ _ he h1 h8 =>
      have arg (on : Bool) {args : List Byte} (ha : args = [byte (switchNat on), byte _]) :=
        (congrArg pieceReportArgs ha).trans (pieceReportArgs_valid on h1 h8)
      ⟨fun ha => pieceReport_off he (arg false ha), fun ha => pieceReport_stays_off he (arg false ha),
        fun ha => ⟨pieceReport_on_full he (arg true ha), pieceReport_on_room he (arg true ha)⟩⟩,
    fun _ _ he ha => reportFlush_closes he ha⟩

/-! ### Ink and date (R125, R127) -/

theorem refillArgs_valid (l : Lane) (h : HeadId) {n : Nat} (hn : n ≤ 1000000) :
    refillArgs ([byte (laneNat l), byte (headNat h)] ++ beBytes 3 n) = .valid (l, h, n) := by
  have en : within 0 1000000 (beNat (beBytes 3 n)) = some n :=
    within_eq_some.2 (by rw [beNat_beBytes_three (by omega)]; omega)
  show inRange _ = _
  simp only [laneOf_laneNat, headOf_headNat]
  rw [show [_, _, _] = beBytes 3 n from rfl, en]
  rfl

theorem dateArgs_valid {y m d h : Nat} (hy : 2000 ≤ y ∧ y ≤ 2099) (hm : 1 ≤ m ∧ m ≤ 12) (hd : 1 ≤ d ∧ d ≤ 31) (hh : h ≤ 23) :
    dateArgs (beBytes 2 y ++ [byte m, byte d, byte h]) = .valid ⟨y, m, d, h⟩ := by
  have ey : within 2000 2099 (beNat (beBytes 2 y)) = some y :=
    within_eq_some.2 (by rw [beNat_beBytes_two (by omega)]; omega)
  have em : within 1 12 (byte m).toNat = some m := within_eq_some.2 (by rw [byte_toNat (by omega)]; omega)
  have ed : within 1 31 (byte d).toNat = some d := within_eq_some.2 (by rw [byte_toNat (by omega)]; omega)
  have eh : within 0 23 (byte h).toNat = some h := within_eq_some.2 (by rw [byte_toNat (by omega)]; omega)
  show inRange _ = _
  rw [show [_, _] = beBytes 2 y from rfl, ey, em, ed, eh]
  rfl

/-- The days of a month, February leap years included (R127). -/
theorem le_daysOf {y m d : Nat} (hm : 1 ≤ m ∧ m ≤ 12) (hd : d ≤ 31) :
    d ≤ daysOf y m ↔ (m = 2 → d ≤ 28 ∨ d = 29 ∧ y % 4 = 0) ∧ (m = 4 ∨ m = 6 ∨ m = 9 ∨ m = 11 → d ≤ 30) := by
  obtain ⟨h1, h2⟩ := hm
  unfold daysOf
  split <;> grind

/-- Settles O42: the refill by the reserved ink, the date by the days of its month. -/
theorem inkAndDateCommandsReplace : Obligations.InkAndDateCommandsReplace := by
  refine ⟨fun s c l h n he hn ha => ⟨fun hr => ?low, fun hr => ?refill⟩,
    fun s c y m d h he y1 y2 m1 m2 d1 d2 hh ha => ?date⟩
  case low =>
    refine .of_next he ((completion_next he (ha ▸ refillArgs_valid l h hn)).trans ?_)
    exact congrArg _ (if_pos hr)
  case refill =>
    refine .of_next he ((completion_next he (ha ▸ refillArgs_valid l h hn)).trans ?_)
    exact congrArg _ (if_neg (by exact Nat.not_lt.2 hr))
  case date =>
    have harg := ha ▸ dateArgs_valid ⟨y1, y2⟩ ⟨m1, m2⟩ ⟨d1, d2⟩ hh
    have hv := le_daysOf (y := y) ⟨m1, m2⟩ d2
    intro valid
    refine ⟨fun h => .of_next he ((completion_next he harg).trans ?_), fun h => .of_next he ((completion_next he harg).trans ?_)⟩
    · exact congrArg _ (if_neg (Nat.not_lt.2 (hv.2 h)))
    · exact congrArg _ (if_pos (Nat.not_le.1 (mt hv.1 h)))

/-! ### The counters (R149, R150) -/

theorem snapshotArgs_lane (l : Lane) (x : Bool) :
    snapshotArgs [byte (laneNat l), byte (switchNat x)] = .valid (.lane l, x) := by cases l <;> cases x <;> rfl

theorem snapshotArgs_block (n : Fin 4) (x : Bool) :
    snapshotArgs [byte (2 + n.val), byte (switchNat x)] = .valid (.block n, x) := by
  match n with
  | 0 | 1 | 2 | 3 => cases x <;> rfl

theorem values_eq (k : LaneCounters) :
    k.values
      = [k.captured, k.untracked]
        ++ [Disposition.facedCancelled, .facedPrecancel, .facedHand, .facedMeter, .facedPermit, .rejectDouble, .rejectLate,
            .rejectScan, .rejectNomark, .rejectAmbiguous, .rejectGate, .rejectPocket, .glitch, .jamLost,
            .resetLost].map (fun d => k.dispositions.get d.index)
        ++ [k.strikes, k.missed, k.suppressed, k.shingled, k.lateFound, k.staleRef, k.sampleRange, k.auditSkipped] := by
  have h : k.dispositions.toList = (List.finRange 15).map k.dispositions.get := by
    refine List.ext_getElem (by simp) fun i h1 h2 => ?_
    simp [Vector.get]
  unfold LaneCounters.values
  rw [h]
  rfl

theorem clearBlock_get (n : Fin 4) (cs : Vector CategoryRecord 64) (i : Fin 64) :
    (clearBlock n cs).get i = if i.val / 16 = n.val then ⟨0, 0⟩ else cs.get i := by
  simp [clearBlock, Vector.get_eq_getElem]

/-- Settles O44: the group answered and cleared, a lane or a block. -/
theorem countSnapshotAnswersAndClears : Obligations.CountSnapshotAnswersAndClears := by
  refine ⟨values_eq, fun s c clear he => ⟨fun l ha => ?lane, fun n ha => ?block⟩⟩
  case lane =>
    have h := completion_next (act := fun s c a => (if a.2 then s.clearGroup a.1 else s).complete c .done (s.groupData a.1)) he
      ((congrArg snapshotArgs ha).trans (snapshotArgs_lane l clear))
    cases clear <;> exact .of_next he h
  case block =>
    have h := completion_next (act := fun s c a => (if a.2 then s.clearGroup a.1 else s).complete c .done (s.groupData a.1)) he
      ((congrArg snapshotArgs ha).trans (snapshotArgs_block n clear))
    cases clear with
    | false => exact ⟨s.categories, fun i => by simp, .of_next he h⟩
    | true => exact ⟨clearBlock n s.categories, fun i => by simp [clearBlock_get], .of_next he h⟩

end Sys2Proof.Machine

/-! O18 and O38: who is served next, at the transmitter, the interpreter and the scoring engine. -/

namespace Sys2Proof.Machine

/-! ### Two queues, one server -/

/-- The queue that is served of two: the one that waits, or the other lane's than last (R12, R80). -/
def waitingLane {α : Type} (q : PerLane (List α)) (last : Lane) : Option Lane :=
  match q.a, q.b with
  | [], [] => none
  | _ :: _, [] => some .a
  | [], _ :: _ => some .b
  | _ :: _, _ :: _ => some (otherLane last)

theorem actToServe_eq (k : Link) : actToServe k = waitingLane k.act k.lastAct := by
  unfold actToServe waitingLane
  cases k.act.a <;> cases k.act.b <;> rfl

theorem queueToServe_eq (k : Scorer) : queueToServe k = waitingLane k.queues k.lastServed := by
  unfold queueToServe waitingLane
  cases k.queues.a <;> cases k.queues.b <;> rfl

theorem waitingLane_none {α : Type} (last : Lane) : waitingLane (⟨[], []⟩ : PerLane (List α)) last = none := rfl

theorem waitingLane_some {α : Type} {q : PerLane (List α)} {last l : Lane} {x : α} {xs : List α} (h : q.get l = x :: xs)
    (ho : q.get (otherLane l) = [] ∨ last = otherLane l) : waitingLane q last = some l := by
  obtain ⟨qa, qb⟩ := q
  cases l with
  | a =>
    obtain rfl : qa = x :: xs := h
    cases qb with
    | nil => rfl
    | cons y ys =>
      obtain rfl := ho.resolve_left (List.cons_ne_nil y ys)
      rfl
  | b =>
    obtain rfl : qb = x :: xs := h
    cases qa with
    | nil => rfl
    | cons y ys =>
      obtain rfl := ho.resolve_left (List.cons_ne_nil y ys)
      rfl

/-! ### The outbound arbiter (R12, R13) -/

theorem arbitrate_act {s : State} (hs : s.link.sending = none) {l : Lane} {f : OutFrame} {fs : List OutFrame}
    (h : s.link.act.get l = f :: fs) (ho : s.link.act.get (otherLane l) = [] ∨ s.link.lastAct = otherLane l) :
    s.arbitrate = { s with link := { s.link with act := s.link.act.set l fs, lastAct := l, sending := some (.own f) } } := by
  unfold State.arbitrate State.grantAct
  simp only [hs, actToServe_eq, waitingLane_some h ho, h]

section NoAct

variable {s : State}

/-- With no ACT frame waiting PASS is served while it waits alone, or REPORT was last. -/
theorem arbitrate_pass (hs : s.link.sending = none) (ha : s.link.act = ⟨[], []⟩) {u : List Byte} {us : List (List Byte)}
    (h : s.link.fifo = u :: us) (ho : s.reports.queued = [] ∨ s.link.lastGrant = .report) :
    s.arbitrate = { s with link := { s.link with fifo := us, lastGrant := .pass, sending := some (.passed u) } } := by
  unfold State.arbitrate State.grantPass
  simp only [hs, actToServe_eq, ha, waitingLane_none, h]
  cases hq : s.reports.queued with
  | nil => rfl
  | cons g gs =>
    obtain ho | ho := ho
    · exact absurd (hq.symm.trans ho) (List.cons_ne_nil g gs)
    · simp only [ho]

/-- With no ACT frame waiting REPORT is served while it waits alone, or PASS was last. -/
theorem arbitrate_report (hs : s.link.sending = none) (ha : s.link.act = ⟨[], []⟩) {f : OutFrame} {fs : List OutFrame}
    (h : s.reports.queued = f :: fs) (ho : s.link.fifo = [] ∨ s.link.lastGrant = .pass) :
    s.arbitrate
      = { s with
          link := { s.link with lastGrant := .report, sending := some (.own f) }
          reports := { s.reports with queued := fs } } := by
  unfold State.arbitrate State.grantReport
  simp only [hs, actToServe_eq, ha, waitingLane_none, h]
  cases hq : s.link.fifo with
  | nil => rfl
  | cons g gs =>
    obtain ho | ho := ho
    · exact absurd (hq.symm.trans ho) (List.cons_ne_nil g gs)
    · simp only [ho]

theorem arbitrate_idle (hs : s.link.sending = none) (ha : s.link.act = ⟨[], []⟩) (hf : s.link.fifo = [])
    (hq : s.reports.queued = []) : s.arbitrate = s := by
  unfold State.arbitrate
  simp only [hs, actToServe_eq, ha, waitingLane_none, hf, hq]

end NoAct

/-- The part with its link free. -/
def State.linkFreed (s : State) : State := { s with link := { s.link with sending := none } }

theorem transmissionEnd_next {s : State} {x : Outgoing} (h : s.link.sending = some x) :
    exec .transmissionEnd s = .next s.linkFreed.arbitrate := by
  show execTransmissionEnd s = _
  unfold execTransmissionEnd
  rw [h]
  rfl

/-- Settles O18: the four grants of the arbiter on the link that has become free. -/
theorem transmissionEndGrantsByRule : Obligations.TransmissionEndGrantsByRule := by
  intro s x hx
  rw [transmissionEnd_next hx]
  exact ⟨fun l f fs h ho => congrArg _ (arbitrate_act (s := s.linkFreed) rfl h ho),
    fun ha => ⟨fun u us h ho => congrArg _ (arbitrate_pass (s := s.linkFreed) rfl ha h ho),
      fun f fs h ho => congrArg _ (arbitrate_report (s := s.linkFreed) rfl ha h ho),
      fun hf hq => congrArg _ (arbitrate_idle (s := s.linkFreed) rfl ha hf hq)⟩⟩

/-! ### The interpreter and the engine (R19, R80) -/

theorem commandTake_takes {s : State} {c : Cmd} {cs : List Cmd} (he : s.interp.executing = none) (hq : s.interp.queue = c :: cs) :
    exec .commandTake s = .next { s with interp := { queue := cs, executing := some c } } := by
  show execCommandTake s = _
  unfold execCommandTake
  rw [he, hq]

theorem commandTake_idle {s : State} (h : s.interp.executing ≠ none ∨ s.interp.queue = []) :
    exec .commandTake s = .next s := by
  show execCommandTake s = _
  unfold execCommandTake
  split
  · rename_i he hq
    obtain h | h := h
    · exact absurd he h
    · exact absurd (hq.symm.trans h) (List.cons_ne_nil _ _)
  · rfl

theorem engineTake_takes {s : State} {l : Lane} {j : Job} {js : List Job} (he : s.scorer.engine = none)
    (h : s.scorer.queues.get l = j :: js)
    (ho : s.scorer.queues.get (otherLane l) = [] ∨ s.scorer.lastServed = otherLane l) :
    exec .engineTake s
      = .next ({ s with scorer := { queues := s.scorer.queues.set l js, engine := some j, lastServed := l } }.modPiece l j.tag
          fun p => { p with scan := .scoring }) := by
  show execEngineTake s = _
  simp only [execEngineTake, State.takeJob, State.engineTakes, he, queueToServe_eq, waitingLane_some h ho, h]

theorem engineTake_idle {s : State} (h : s.scorer.engine ≠ none ∨ s.scorer.queues = ⟨[], []⟩) :
    exec .engineTake s = .next s := by
  show execEngineTake s = _
  unfold execEngineTake State.takeJob
  cases he : s.scorer.engine with
  | some j => rfl
  | none =>
    obtain h | h := h
    · exact absurd he h
    · simp only [queueToServe_eq, h, waitingLane_none]

/-- Settles O38: each take, and what stops it. -/
theorem interpreterAndEngineTakeTheHead : Obligations.InterpreterAndEngineTakeTheHead :=
  fun _ => ⟨fun _ _ => commandTake_takes, commandTake_idle, fun _ _ _ he h ho => engineTake_takes he h ho, engineTake_idle⟩

end Sys2Proof.Machine

/-! O14: the reception tests, the check and the bytes of the part's own frames. -/

namespace Sys2Proof.Machine

/-! ### The check (R2) -/

/-- A register shifted `k` places, fed with the bit then at its top, shifts once more. -/
theorem crcBit_shift (r : BitVec 16) {k : Nat} (hk : k ≤ 15) : crcBit (r <<< k) (r.getLsbD (15 - k)) = r <<< (k + 1) := by
  have h : (r <<< k).msb = r.getLsbD (15 - k) := by
    rw [BitVec.msb_eq_getLsbD_last, BitVec.getLsbD_shiftLeft]
    simp only [show ¬(16 - 1 < k) by omega, decide_false, Bool.not_false, Bool.and_true]
    simp
  unfold crcBit
  rw [h, bne_self_eq_false, if_neg Bool.false_ne_true, ← BitVec.shiftLeft_add]

/-- A register fed with the byte at its top is shifted by eight places. -/
theorem crcByte_top (r : BitVec 16) (x : Byte) (h : ∀ i < 8, x.getLsbD i = r.getLsbD (8 + i)) : crcByte r x = r <<< 8 := by
  unfold crcByte
  have step (k : Nat) (hk : k < 8) : crcBit (r <<< k) (x.getLsbD (7 - k)) = r <<< (k + 1) := by
    rw [h _ (by omega), show 8 + (7 - k) = 15 - k by omega]
    exact crcBit_shift r (by omega)
  have h0 : r = r <<< 0 := (BitVec.shiftLeft_zero r).symm
  simp only [List.foldl_cons, List.foldl_nil]
  rw [congrArg (fun y => crcBit y _) h0]
  rw [step 0 (by omega), step 1 (by omega), step 2 (by omega), step 3 (by omega), step 4 (by omega), step 5 (by omega),
    step 6 (by omega), step 7 (by omega)]

theorem byte_getLsbD (n : Nat) {i : Nat} (hi : i < 8) : (byte n).getLsbD i = n.testBit i := by
  rw [byte, BitVec.getLsbD_ofNat, decide_eq_true hi, Bool.true_and]

/-- A register fed with its own two bytes is 0. -/
theorem crcByte_self (r : BitVec 16) : crcByte (crcByte r (byte (r.toNat / 256))) (byte r.toNat) = 0 := by
  have high (i : Nat) (hi : i < 8) : (byte (r.toNat / 256)).getLsbD i = r.getLsbD (8 + i) := by
    rw [byte_getLsbD _ hi, show (256 : Nat) = 2 ^ 8 from rfl, Nat.testBit_div_two_pow, Nat.add_comm]
    rfl
  have low (i : Nat) (hi : i < 8) : (byte r.toNat).getLsbD i = (r <<< 8).getLsbD (8 + i) := by
    rw [byte_getLsbD _ hi, BitVec.getLsbD_shiftLeft]
    simp only [show 8 + i < 16 by omega, show ¬8 + i < 8 by omega, Nat.add_sub_cancel_left, decide_true, decide_false,
      Bool.not_false, Bool.true_and]
    rfl
  rw [crcByte_top r _ high, crcByte_top _ _ low, ← BitVec.shiftLeft_add]
  exact BitVec.shiftLeft_eq_zero (Nat.le_refl 16)

/-- The check run over bytes and their own check is 0. -/
theorem crc_checkBytes (bs : List Byte) : crc (bs ++ checkBytes bs) = 0 := by
  have h : checkBytes bs = [byte ((crc bs).toNat / 256), byte (crc bs).toNat] := beBytes_two _
  rw [h]
  unfold crc
  rw [List.foldl_append]
  exact crcByte_self (bs.foldl crcByte 0xFFFF#16)

/-! ### The reception tests (R3) -/

theorem checkBytes_length (bs : List Byte) : (checkBytes bs).length = 2 := rfl

theorem frameHead_length (d s : Station) (k : Byte) (p : List Byte) : (frameHead d s k p).length = 6 + p.length := by
  simp [frameHead, stationBytes]
  omega

theorem frameBytes_length (d s : Station) (k : Byte) (p : List Byte) : (frameBytes d s k p).length = 8 + p.length := by
  rw [frameBytes, List.length_append, frameHead_length, checkBytes_length]
  omega

/-- A frame as written passes the tests and is read as what was written. -/
theorem receive_frameBytes (d s : Station) (k : Byte) {p : List Byte} (hp : p.length ≤ 255) :
    receive (frameBytes d s k p) = .wellFormed { dest := d, src := s, kind := k, payload := p } := by
  have hl := frameBytes_length d s k p
  have hh : (frameBytes d s k p).length - 2 = (frameHead d s k p).length := by rw [hl, frameHead_length]; omega
  have ht : (frameBytes d s k p).take ((frameBytes d s k p).length - 2) = frameHead d s k p := by
    rw [hh]
    exact List.take_left ..
  have hd : (frameBytes d s k p).drop ((frameBytes d s k p).length - 2) = checkBytes (frameHead d s k p) := by
    rw [hh]
    exact List.drop_left ..
  have hr : (p ++ checkBytes (frameHead d s k p)).length - 2 = p.length := by
    rw [List.length_append, checkBytes_length]
    omega
  unfold receive
  rw [ht, hd, bne_self_eq_false, if_neg (by simp [hl]; omega), if_neg Bool.false_ne_true]
  show (if (p ++ checkBytes (frameHead d s k p)).length - 2 = (byte p.length).toNat then _ else _) = _
  rw [hr, byte_toNat (by omega), if_pos rfl]
  exact congrArg (fun q => Reception.wellFormed ⟨d, s, k, q⟩) ((congrArg (List.take · _) hr).trans (List.take_left ..))

/-- A unit of at least six bytes is its header's six and the rest. -/
theorem unit_split {u : List Byte} (h : 6 ≤ u.length) :
    ∃ (d s : Station) (k n : Byte) (rest : List Byte), u = stationBytes d ++ stationBytes s ++ [k, n] ++ rest := by
  match u, h with
  | a :: b :: c :: d :: e :: f :: rest, _ => exact ⟨⟨a, b⟩, ⟨c, d⟩, e, f, rest, rfl⟩

/-- A unit that passes the tests is the frame it is read as, written. -/
theorem frameBytes_of_receive {u : List Byte} {f : RxFrame} (h : receive u = .wellFormed f) :
    u = frameBytes f.dest f.src f.kind f.payload ∧ f.payload.length ≤ 255 := by
  unfold receive at h
  split at h
  · cases h
  rename_i hsize
  split at h
  · cases h
  rename_i hcheck
  have hsize : 8 ≤ u.length := by simp at hsize; omega
  have hcheck : checkBytes (u.take (u.length - 2)) = u.drop (u.length - 2) := by simpa using hcheck
  obtain ⟨d, s, k, n, rest, rfl⟩ := unit_split (u := u) (by omega)
  simp only [stationBytes, List.cons_append, List.nil_append] at h
  split at h
  case isFalse => cases h
  case isTrue hn =>
    cases h
    have hrest : 2 ≤ rest.length := by simp [stationBytes] at hsize; omega
    have hlen : (rest.take (rest.length - 2)).length = n.toNat := by rw [List.length_take]; omega
    have hhead : (stationBytes d ++ stationBytes s ++ [k, n] ++ rest).take
        ((stationBytes d ++ stationBytes s ++ [k, n] ++ rest).length - 2) = frameHead d s k (rest.take (rest.length - 2)) := by
      have e : (stationBytes d ++ stationBytes s ++ [k, n] ++ rest).length - 2
          = (stationBytes d ++ stationBytes s ++ [k, n]).length + (rest.length - 2) := by
        rw [List.length_append]
        omega
      rw [e, List.take_length_add_append]
      unfold frameHead
      rw [hlen, byte_of_toNat]
    refine ⟨?_, by rw [hlen]; omega⟩
    unfold frameBytes
    rw [← hhead, hcheck, List.take_append_drop]

/-! ### The bytes of the part's own frames (12.1, 12.3) -/

theorem pieceReportBytes_eq (r : PieceReport) :
    pieceReportBytes r
      = beBytes 2 r.tag.toNat
        ++ [byte (laneNat r.lane), optByte (r.disposition.map fun x => x.index.val), optByte (r.corner.map Corner.toNat),
          optByte (r.category.map Fin.val), optByte (r.pocket.map Fin.val)]
        ++ beBytes 2 (r.length.getD 0) := rfl

/-- Settles O14: the frames that pass, the check, and the bytes of each kind of frame. -/
theorem receivedUnitIsTheFrameItSpells : Obligations.ReceivedUnitIsTheFrameItSpells := by
  refine ⟨⟨fun d s k p => receive_frameBytes d s k, fun u f => frameBytes_of_receive⟩,
    ⟨by decide +kernel, crc_checkBytes⟩, fun d s k p => rfl, fun s l m => rfl, ?_⟩
  intro d s tag pos one flag
  refine ⟨fun l m => ?act, fun c n rc data => rfl, fun sr m => ?notice⟩
  case act => cases m <;> rfl
  case notice =>
    have hflag (b : Bool) : byte (switchNat b) = flag b := byte_switchNat b
    have hone (x : Option Nat) : optByte x = one x := by cases x <;> rfl
    intro record
    cases m with
    | lane | jam | pocketFull | tray | inkLow | inkOut | refused => rfl
    | monitor l i b q n lim r =>
      show record 3 ([byte (laneNat l), byte i.toNat, byte (switchNat b)] ++ _ ++ _ ++ _) = _
      rw [hflag]
      rfl
    | head l h b n =>
      show record 8 [_, _, byte (switchNat b), _] = _
      rw [hflag]
    | piece rs =>
      show record 9 (byte rs.length :: (rs.map pieceReportBytes).flatten) = _
      simp only [← List.flatMap_def, funext pieceReportBytes_eq, hone]
      rfl

end Sys2Proof.Machine

/-! A consumed frame and the offer of its forwarded copy, in either order (R6, R9; log entry 3). -/

namespace Sys2Proof.Machine

/-! ### Destinations (R5) -/

theorem byteMatches_iff (d x : Byte) : byteMatches d x = true ↔ d = x ∨ d = 0xFF#8 := by simp [byteMatches]

theorem addressed_iff (k : Link) (d : Station) : addressed k d = true ↔ k.named d := by
  unfold addressed Link.named
  cases k.mode <;> simp [byteMatches_iff]

theorem broadcast_iff {k : Link} {d : Station} (h : k.named d) : broadcast k d = true ↔ k.wild d := by
  unfold broadcast wildcard Link.wild
  rw [(addressed_iff k d).2 h]
  cases k.mode <;> simp

/-! ### What a busy transmitter keeps -/

/-- A change that leaves a busy transmitter's frame and the FIFO alone. -/
def State.Busy (s t : State) : Prop :=
  s.link.sending ≠ none → t.link.sending = s.link.sending ∧ t.link.fifo = s.link.fifo

theorem State.Busy.refl (s : State) : s.Busy s := fun _ => ⟨rfl, rfl⟩

theorem State.Busy.trans {s t u : State} (h : s.Busy t) (h' : t.Busy u) : s.Busy u := fun hs => by
  obtain ⟨h1, h2⟩ := h hs
  obtain ⟨h3, h4⟩ := h' (h1 ▸ hs)
  exact ⟨h3.trans h1, h4.trans h2⟩

theorem State.Busy.of_eq {s t : State} (h1 : t.link.sending = s.link.sending := by rfl)
    (h2 : t.link.fifo = s.link.fifo := by rfl) : s.Busy t := fun _ => ⟨h1, h2⟩

theorem arbitrate_busy (s : State) : s.Busy s.arbitrate := fun hs => by
  obtain ⟨x, hx⟩ := Option.ne_none_iff_exists'.1 hs
  rw [State.arbitrate_busy hx]
  exact ⟨rfl, rfl⟩

theorem queueReport_busy (s : State) (f : OutFrame) : s.Busy (s.queueReport f) :=
  State.Busy.trans (t := { s with reports := { s.reports with queued := s.reports.queued ++ [f] } }) .of_eq (arbitrate_busy _)

theorem joinAct_busy (s : State) (l : Lane) (m : ActMsg) : s.Busy (s.joinAct l m) :=
  State.Busy.trans (t := { s with link := { s.link with act := s.link.act.set l (s.link.act.get l ++ [s.actFrame l m]) } }) .of_eq
    (arbitrate_busy _)

theorem postNotice_busy (s : State) (d : Station) (m : NoticeMsg) : s.Busy (s.postNotice d m) := by
  unfold State.postNotice
  dsimp only
  split
  · exact State.Busy.trans (t := { s with reports := { s.reports with nextSerial := s.reports.nextSerial + 1 } }) .of_eq
      (queueReport_busy _ _)
  · exact .of_eq

theorem notice_busy (s : State) (k : NoticeClass) (m : NoticeMsg) : s.Busy (s.notice k m) := by
  unfold State.notice
  split
  · exact postNotice_busy s _ m
  · exact .refl s

theorem closeBatch_busy (s : State) : s.Busy s.closeBatch := by
  unfold State.closeBatch
  split
  · exact .refl s
  · exact State.Busy.trans (t := { s with reports := { s.reports with batch := [] } }) .of_eq (notice_busy _ _ _)

theorem withdrawLane_busy (s : State) (l : Lane) : s.Busy (s.withdrawLane l) :=
  have h := (withdrawLane_keeps s l).2
  .of_eq (congrArg Link.sending h) (congrArg Link.fifo h)

theorem jam_busy (s : State) (l : Lane) (cause : JamCause) (fromFeed : Bool) : s.Busy (s.jam l cause fromFeed) := by
  have h1 : s.Busy (((s.modLane l LaneS.jam).emptyAct l).joinAct l .safe) :=
    State.Busy.trans (t := (s.modLane l LaneS.jam).emptyAct l) .of_eq (joinAct_busy _ _ _)
  have h2 : s.Busy (if (s.lane l).feedRate != .hold || fromFeed then
      (((s.modLane l LaneS.jam).emptyAct l).joinAct l .safe).joinAct l (.feed .hold)
    else ((s.modLane l LaneS.jam).emptyAct l).joinAct l .safe) := by
    split
    · exact h1.trans (joinAct_busy _ _ _)
    · exact h1
  have h3 := ((h2.trans (.of_eq (t := State.emptyBookings _ l))).trans (withdrawLane_busy _ l)).trans (closeBatch_busy _)
  exact (h3.trans (notice_busy _ .jam _)).trans .of_eq

/-! ### The offer of a forwarded frame (R9) -/

/-- A frame that finds a place joins the tail of what passes through. -/
theorem offer_room {s : State} (hf : s.FramesFiled) {unit : List Byte} (h : s.link.fifo.length < 4) :
    (s.offer unit).quiet = s.quiet ∧ (s.offer unit).reportTraffic = s.reportTraffic
      ∧ (∀ l, (s.offer unit).actTraffic l = s.actTraffic l) ∧ (s.offer unit).passTraffic = s.passTraffic ++ [unit] := by
  have hg : State.FramesFiled { s with link := { s.link with fifo := s.link.fifo ++ [unit] } } := ⟨hf.act, hf.reports⟩
  obtain ⟨⟨hreports, hacts, hpass⟩, -⟩ := State.arbitrate_traffic hg
  have e : s.offer unit = { s with link := { s.link with fifo := s.link.fifo ++ [unit] } }.arbitrate := if_pos h
  rw [e]
  exact ⟨State.arbitrate_quiet _, hreports, hacts, hpass.trans (List.append_assoc ..).symm⟩

/-- A frame that finds none is lost. -/
theorem offer_full {s : State} {unit : List Byte} (h : 4 ≤ s.link.fifo.length) : s.offer unit = s.passDropped :=
  if_neg (Nat.not_lt.2 h)

/-- The part with other traffic through it, another count of choices, and as many PASS_DROPS as that has. -/
def State.beside (s v : State) : State :=
  { s with
    link :=
      { s.link with
        fifo := v.link.fifo, lastGrant := v.link.lastGrant, sending := v.link.sending
        counters := { s.link.counters with passDrops := v.link.counters.passDrops } }
    freeCount := v.freeCount }

theorem beside_filed {s v : State} (hf : s.FramesFiled) : (s.beside v).FramesFiled := ⟨hf.act, hf.reports⟩

/-- While nothing waits for a free link, an offer touches only what passes through. -/
theorem offer_beside {s : State} (hi : s.FreeLinkIsIdle) (unit : List Byte) : s.offer unit = s.beside (s.offer unit) := by
  unfold State.offer
  split
  · cases hs : s.link.sending with
    | some x =>
      rw [State.arbitrate_busy (s := { s with link := { s.link with fifo := s.link.fifo ++ [unit] } }) hs]
      rfl
    | none =>
      obtain ⟨hact, hfifo, hqueued⟩ := hi hs
      have ha : s.link.act = ⟨[], []⟩ := by
        have h1 : s.link.act.a = [] := hact .a
        have h2 : s.link.act.b = [] := hact .b
        cases he : s.link.act with
        | mk a b => simp_all
      rw [arbitrate_pass (s := { s with link := { s.link with fifo := s.link.fifo ++ [unit] } }) hs ha
        (congrArg (· ++ [unit]) hfifo) (.inl hqueued)]
      rfl
  · rfl

/-! ### A consumed frame (R6) -/

/-- What a consumed frame does, wherever its forwarded copy went: the effect `f` leaves `g` and report frames. -/
structure Delivers (s : State) (f g : State → State) (rs : List OutFrame) : Prop where
  effect : ∀ v, Effect (s.beside v) (f (s.beside v)) (g (s.beside v)) rs noActs
  busy : ∀ v, State.Busy v (f v)
  drawn : (g s.choiceDrawn).quiet = (g s).choiceDrawn.quiet
  traffic : ∀ t, t.reports.queued = s.reports.queued → (g (s.choiceDrawn.withTraffic t)).quiet = (g s.choiceDrawn).quiet
  dropped : (g s.choiceDrawn.passDropped).quiet = (g s.choiceDrawn).passDropped.quiet

/-- A free link carries no unit that passes through, and none waits; a busy one keeps its own. -/
theorem fifo_room {s t : State} (hi : s.FreeLinkIsIdle) (hb : s.Busy t) (hp : t.passTraffic = s.passTraffic)
    (h : s.link.fifo.length < 4) : t.link.fifo.length < 4 := by
  by_cases hs : s.link.sending = none
  · obtain ⟨-, hfifo, -⟩ := hi hs
    have e : s.passTraffic = [] := by simp [State.passTraffic, Link.sendingPassed, hs, hfifo]
    rw [e] at hp
    have := (List.append_eq_nil_iff.1 hp).2
    simp [this]
  · rw [(hb hs).2]
    exact h

theorem quiet_passDropped {t u : State} (h : t.quiet = u.quiet) : t.passDropped.quiet = u.passDropped.quiet := by
  rw [State.eq_withTraffic h]
  rfl

/-- A consumed frame's step, from what its effect does. -/
theorem Consumes.of_delivers {i : Instr} {s : State} {unit : List Byte} {d : Station} {f g : State → State}
    {rs : List OutFrame} (hf : s.FramesFiled) (hn : s.link.named d) (hd : Delivers s f g rs)
    (h : exec i s = .next (s.consume unit d f)) : Consumes i s unit d (g s) rs := by
  have self : s.beside s = s := rfl
  have hdr : s.beside s.choiceDrawn = s.choiceDrawn := rfl
  refine ⟨fun hw => ?alone, fun hw hi => ⟨fun hroom => ?room, fun hfull => ?full⟩⟩
  case alone =>
    have e : s.consume unit d f = f s := if_neg (mt (broadcast_iff hn).1 hw)
    exact (self ▸ hd.effect s).gives (e ▸ h)
  case room =>
    have e : s.consume unit d f = s.inEitherOrder (fun s => s.offer unit) f := if_pos ((broadcast_iff hn).2 hw)
    rw [e] at h
    unfold State.inEitherOrder at h
    split at h
    case isTrue =>
      obtain ⟨hq, hr, ha, hp⟩ := offer_room (s := s.choiceDrawn) (unit := unit) ⟨hf.act, hf.reports⟩ hroom
      have ev : s.choiceDrawn.offer unit = s.beside (s.choiceDrawn.offer unit) := offer_beside (s := s.choiceDrawn) hi unit
      have he := hd.effect (s.choiceDrawn.offer unit)
      have ht := hd.traffic (s.choiceDrawn.offer unit) (congrArg (fun w => w.reports.queued) ev)
      rw [← State.eq_withTraffic hq] at ht
      rw [← ev] at he
      exact ⟨_, h, (he.quiet.trans ht).trans hd.drawn, he.reports.trans (by rw [hr]; rfl),
        fun l => (he.acts l).trans ((List.append_nil _).trans (ha l)), he.pass.trans hp⟩
    case isFalse =>
      have he := hd.effect s.choiceDrawn
      rw [hdr] at he
      obtain ⟨hq, hr, ha, hp⟩ := offer_room (unit := unit) he.filed (fifo_room hi (hd.busy s.choiceDrawn) he.pass hroom)
      exact ⟨_, h, (hq.trans he.quiet).trans hd.drawn, hr.trans he.reports,
        fun l => (ha l).trans ((he.acts l).trans (List.append_nil _)), hp.trans (congrArg (· ++ [unit]) he.pass)⟩
  case full =>
    have hs : s.link.sending ≠ none := fun hs => by
      rw [(hi hs).2.1] at hfull
      exact absurd hfull (by decide)
    have e : s.consume unit d f = s.inEitherOrder (fun s => s.offer unit) f := if_pos ((broadcast_iff hn).2 hw)
    rw [e] at h
    have hq := hd.dropped.trans (quiet_passDropped hd.drawn)
    unfold State.inEitherOrder at h
    split at h
    case isTrue =>
      rw [show (fun s => State.offer s unit) s.drawn = s.choiceDrawn.passDropped from offer_full hfull] at h
      have he := hd.effect s.choiceDrawn.passDropped
      exact (Effect.as (s := s) ⟨he.quiet, he.reports, he.acts, he.pass, he.filed, he.slots, he.places⟩ hq).gives h
    case isFalse =>
      have he := hd.effect s.choiceDrawn
      have hfifo : 4 ≤ (f s.drawn).link.fifo.length := by
        rw [(hd.busy s.drawn hs).2]
        exact hfull
      rw [show (fun s => State.offer s unit) (f s.drawn) = (f s.drawn).passDropped from offer_full hfifo] at h
      exact ⟨_, h, quiet_passDropped (he.quiet.trans hd.drawn), he.reports, he.acts, he.pass⟩

end Sys2Proof.Machine

/-! O15 fails; O16 and O17: COMMAND frames and ACT_STATUS frames. -/

namespace Sys2Proof.Machine

/-! ### Forwarded frames (R4, R6, R9) -/

/-- Refutes O15: as it is bracketed, its last clause says of every frame that it is of a forwarded kind, not
addressed to the part, or a SAMPLE frame; the conditions do not guard what follows them. A COMMAND frame to the
part at power-on is none of the three. -/
theorem not_unitsAreDroppedForwardedOrCounted : ¬Obligations.UnitsAreDroppedForwardedOrCounted := by
  rintro ⟨-, h⟩
  have filed : State.reset.FramesFiled := ⟨fun l f hf => (by cases l <;> cases hf), fun f hf => absurd hf List.not_mem_nil⟩
  obtain ⟨-, kinds | ⟨-, unnamed⟩ | ⟨sample, -⟩⟩ := h State.reset ⟨0, 0⟩ ⟨0, 0⟩ 0x21 [] filed (Nat.zero_le _)
  · exact absurd kinds (by decide)
  · exact unnamed trivial
  · exact absurd sample (by decide)

/-! ### COMMAND frames (R6, R18) -/

theorem frameOfKind_frameBytes (d src : Station) (kind : Byte) {p : List Byte} (hp : p.length ≤ 255) :
    frameOfKind kind (frameBytes d src kind p) = some ⟨d, src, kind, p⟩ := by
  unfold frameOfKind
  rw [receive_frameBytes d src kind hp]
  exact if_pos rfl

theorem commandFrame_next {s : State} {d src : Station} {p : List Byte} (hp : p.length ≤ 255) (hn : s.link.named d) :
    exec (.commandFrame (frameBytes d src 0x21 p)) s
      = .next (s.consume (frameBytes d src 0x21 p) d fun s => s.takeCommand ⟨d, src, 0x21, p⟩) := by
  show execCommandFrame _ s = _
  unfold execCommandFrame
  rw [show frameOfKind kindCommand (frameBytes d src 0x21 p) = some ⟨d, src, 0x21, p⟩ from frameOfKind_frameBytes _ _ _ hp]
  dsimp only
  rw [(addressed_iff s.link d).2 hn]
  rfl

theorem takeCommand_short {d src : Station} {p : List Byte} (hp : p.length < 2) (v : State) :
    v.takeCommand ⟨d, src, 0x21, p⟩ = v.formatCounted := by
  match p, hp with
  | [], _ => rfl
  | [_], _ => rfl

/-- The part with the sender of a COMMAND frame as its controller (R6). -/
def State.heard (s : State) (src : Station) : State := { s with link := { s.link with controller := src } }

theorem takeCommand_eq (v : State) (d src : Station) (code number : Byte) (args : List Byte) :
    v.takeCommand ⟨d, src, 0x21, code :: number :: args⟩ = (v.heard src).acceptOrRefuse ⟨src, code, number, args⟩ := rfl

theorem takeCommand_busy (f : RxFrame) (v : State) : v.Busy (v.takeCommand f) := by
  unfold State.takeCommand
  split
  · refine State.Busy.trans (t := v.heard f.src) .of_eq ?_
    unfold State.acceptOrRefuse
    split
    · exact .of_eq
    · exact postNotice_busy _ _ _
  · exact .of_eq

theorem canAccept_iff (v : State) :
    v.canAccept = true ↔ v.interp.queue.length < 4 ∧ v.reports.queued.length + v.reports.reserved < 32 := by
  unfold State.canAccept State.slotFree
  rw [Bool.and_eq_true, decide_eq_true_eq, decide_eq_true_eq]
  rfl

section Command

variable {s : State} {d src : Station} {code number : Byte} {args : List Byte}

/-- A COMMAND frame too short for its code and number. -/
theorem short_delivers (hf : s.FramesFiled) {p : List Byte} (hp : p.length < 2) :
    Delivers s (fun v => v.takeCommand ⟨d, src, 0x21, p⟩) State.formatCounted [] where
  effect v := by
    rw [takeCommand_short hp]
    exact .inside (beside_filed hf) rfl rfl rfl rfl
  busy := takeCommand_busy _
  drawn := rfl
  traffic _ _ := rfl
  dropped := rfl

/-- A command that is accepted. -/
theorem accept_delivers (hf : s.FramesFiled) (hq : s.interp.queue.length < 4)
    (hr : s.reports.queued.length + s.reports.reserved < 32) :
    Delivers s (fun v => v.takeCommand ⟨d, src, 0x21, code :: number :: args⟩)
      (fun v => (v.heard src).accept ⟨src, code, number, args⟩) [] where
  effect v := by
    have e : (s.beside v).takeCommand ⟨d, src, 0x21, code :: number :: args⟩
        = ((s.beside v).heard src).accept ⟨src, code, number, args⟩ :=
      if_pos ((canAccept_iff ((s.beside v).heard src)).2 ⟨hq, hr⟩)
    rw [e]
    exact .inside (beside_filed hf) rfl rfl rfl rfl
  busy := takeCommand_busy _
  drawn := rfl
  traffic _ _ := rfl
  dropped := rfl

/-- The part after a REFUSED notice has taken its serial. -/
def State.refused (s : State) (src : Station) : State :=
  { s.heard src with reports := { s.reports with nextSerial := s.reports.nextSerial + 1 } }

/-- A command that is refused, with a slot for its REFUSED notice. -/
theorem refuse_delivers (hf : s.FramesFiled) (hq : 4 ≤ s.interp.queue.length)
    (hr : s.reports.queued.length + s.reports.reserved < 32) :
    Delivers s (fun v => v.takeCommand ⟨d, src, 0x21, code :: number :: args⟩) (fun v => v.refused src)
      [{ dest := src, src := s.link.station, body := .notice s.reports.nextSerial (.refused code number) }] where
  effect v := by
    have e : (s.beside v).takeCommand ⟨d, src, 0x21, code :: number :: args⟩
        = ((s.beside v).heard src).postNotice src (.refused code number) :=
      if_neg fun hc => absurd ((canAccept_iff ((s.beside v).heard src)).1 hc).1 (Nat.not_lt.2 hq)
    have ep : ((s.beside v).heard src).postNotice src (.refused code number)
        = ((s.beside v).refused src).queueReport
            { dest := src, src := s.link.station, body := .notice s.reports.nextSerial (.refused code number) } :=
      if_pos (decide_eq_true hr)
    rw [e, ep]
    have hg : ((s.beside v).refused src).FramesFiled := ⟨hf.act, hf.reports⟩
    have h := queueReport_effect (s := (s.beside v).refused src) hg (f :=
      { dest := src, src := s.link.station, body := .notice s.reports.nextSerial (.refused code number) }) rfl
    exact ⟨h.quiet, h.reports, h.acts, h.pass, h.filed, h.slots, h.places⟩
  busy := takeCommand_busy _
  drawn := rfl
  traffic _ _ := rfl
  dropped := rfl

/-- The part after a REFUSED notice has found no slot. -/
def State.refusedUnheard (s : State) (src : Station) : State :=
  { s.heard src with
    reports :=
      { s.reports with
        nextSerial := s.reports.nextSerial + 1, noticeLost := min (s.reports.noticeLost + 1) 65535
        latches := s.reports.latches ||| 0x200#11 } }

/-- A command that is refused, with no slot for its REFUSED notice. -/
theorem refuse_unheard_delivers (hf : s.FramesFiled) (hr : ¬s.reports.queued.length + s.reports.reserved < 32) :
    Delivers s (fun v => v.takeCommand ⟨d, src, 0x21, code :: number :: args⟩) (fun v => v.refusedUnheard src) [] where
  effect v := by
    have e : (s.beside v).takeCommand ⟨d, src, 0x21, code :: number :: args⟩
        = ((s.beside v).heard src).postNotice src (.refused code number) :=
      if_neg fun hc => hr ((canAccept_iff ((s.beside v).heard src)).1 hc).2
    have ep : ((s.beside v).heard src).postNotice src (.refused code number) = (s.beside v).refusedUnheard src :=
      if_neg (mt of_decide_eq_true hr)
    rw [e, ep]
    exact .inside (beside_filed hf) rfl rfl rfl rfl
  busy := takeCommand_busy _
  drawn := rfl
  traffic _ _ := rfl
  dropped := rfl

end Command

/-- Settles O16: the four ways a COMMAND frame to the part can go, each wherever its copy goes. -/
theorem commandFramesAreAcceptedOrRefused : Obligations.CommandFramesAreAcceptedOrRefused := by
  intro s d src p hf hp hn
  have next := commandFrame_next (src := src) hp hn
  refine ⟨fun h => .of_delivers hf hn (short_delivers hf h) next, ?_⟩
  rintro code number args rfl
  exact ⟨fun hq hr => .of_delivers hf hn (accept_delivers hf hq hr) next,
    fun hq hr => .of_delivers hf hn (refuse_delivers hf hq hr) next,
    fun hr => .of_delivers hf hn (refuse_unheard_delivers hf hr) next⟩

end Sys2Proof.Machine

/-! O17: ACT_STATUS frames. -/

namespace Sys2Proof.Machine

/-! ### The payload (R8, 12.1) -/

theorem parseActStatus_head (l : Lane) (h : HeadId) (fault : Bool) :
    parseActStatus [byte (laneNat l), byte (4 + headNat h), if fault then 1 else 0] = some (.head l h fault) := by
  cases l <;> cases h <;> cases fault <;> rfl

theorem parseActStatus_other (l : Lane) {a : Nat} (ha : a ≤ 3) (fault : Bool) :
    parseActStatus [byte (laneNat l), byte a, if fault then 1 else 0] = some (.other l fault) := by
  interval_cases a <;> cases l <;> cases fault <;> rfl

theorem parseActStatus_none {p : List Byte}
    (h : ¬(p.length = 3 ∧ (p.getD 0 0).toNat ≤ 1 ∧ (p.getD 1 0).toNat ≤ 5 ∧ (p.getD 2 0).toNat ≤ 1)) :
    parseActStatus p = none := by
  unfold parseActStatus
  split
  · rename_i l a c
    have h : ¬(l.toNat ≤ 1 ∧ a.toNat ≤ 5 ∧ c.toNat ≤ 1) := fun hh => h ⟨rfl, hh⟩
    by_cases hl : l.toNat ≤ 1
    · by_cases hc : c.toNat ≤ 1
      · split
        · split
          iterate 6
            · omega
          rfl
        · rfl
      · rw [switchOf_eq_none (by omega)]
        cases laneOf l <;> rfl
    · rw [laneOf_eq_none (by omega)]
  · rfl

section Frame

variable {s : State} {d src : Station} {p : List Byte}

theorem actStatusFrame_next (hp : p.length ≤ 255) (hn : s.link.named d) :
    exec (.actStatusFrame (frameBytes d src 0x32 p)) s
      = .next (s.consume (frameBytes d src 0x32 p) d fun s => s.takeActStatus ⟨d, src, 0x32, p⟩) := by
  show execActStatusFrame _ s = _
  unfold execActStatusFrame
  rw [show frameOfKind kindActStatus (frameBytes d src 0x32 p) = some ⟨d, src, 0x32, p⟩ from frameOfKind_frameBytes _ _ _ hp]
  dsimp only
  rw [(addressed_iff s.link d).2 hn]
  rfl

theorem takeActStatus_some {r : ActReport} (h : parseActStatus p = some r) (v : State) :
    v.takeActStatus ⟨d, src, 0x32, p⟩ = v.actReport r := by
  unfold State.takeActStatus
  rw [h]

theorem takeActStatus_none (h : parseActStatus p = none) (v : State) :
    v.takeActStatus ⟨d, src, 0x32, p⟩ = v.formatCounted := by
  unfold State.takeActStatus
  rw [h]
  rfl

theorem headReport_busy (v : State) (l : Lane) (h : HeadId) (fault : Bool) : v.Busy (v.headReport l h fault) := by
  unfold State.headReport
  split
  · exact .refl v
  · exact State.Busy.trans (t := v.modHead l h fun x => { x with fault := fault }) .of_eq (notice_busy _ _ _)

theorem takeActStatus_busy (f : RxFrame) (v : State) : v.Busy (v.takeActStatus f) := by
  unfold State.takeActStatus
  split
  · rename_i r _
    cases r with
    | head l h fault => exact headReport_busy v l h fault
    | other l fault =>
      show v.Busy (if fault then v.jamCause l .actuatorFault else v)
      unfold State.jamCause
      split
      · split
        · exact jam_busy v l _ _
        · exact .refl v
      · exact .refl v
  · exact .of_eq

/-- A report without effect. -/
theorem idle_delivers (hf : s.FramesFiled) (h : ∀ v, (s.beside v).takeActStatus ⟨d, src, 0x32, p⟩ = s.beside v) :
    Delivers s (fun v => v.takeActStatus ⟨d, src, 0x32, p⟩) (fun v => v) [] where
  effect v := by
    rw [h]
    exact .refl (beside_filed hf)
  busy := takeActStatus_busy _
  drawn := rfl
  traffic _ _ := rfl
  dropped := rfl

/-- A payload out of its layout. -/
theorem malformed_delivers (hf : s.FramesFiled) (h : parseActStatus p = none) :
    Delivers s (fun v => v.takeActStatus ⟨d, src, 0x32, p⟩) State.formatCounted [] where
  effect v := by
    rw [takeActStatus_none h]
    exact .inside (beside_filed hf) rfl rfl rfl rfl
  busy := takeActStatus_busy _
  drawn := rfl
  traffic _ _ := rfl
  dropped := rfl

end Frame

/-! ### A head's condition (R124) -/

/-- The Report Queue after a notice of a class has been built, or not (R24). -/
def Reports.noted (r : Reports) (k : NoticeClass) : Reports :=
  if r.mask.getLsbD k.bit then
    if r.queued.length + r.reserved < Config.reportSlots then { r with nextSerial := r.nextSerial + 1 }
    else
      { r with
        nextSerial := r.nextSerial + 1, noticeLost := min (r.noticeLost + 1) 65535, latches := r.latches ||| 0x200#11 }
  else r

theorem noted_eq (s : State) (k : NoticeClass) : s.noted k = { s with reports := s.reports.noted k } := by
  unfold State.noted Reports.noted State.classOn State.slotFree
  by_cases hc : s.reports.mask.getLsbD k.bit
  · by_cases hs : s.reports.queued.length + s.reports.reserved < Config.reportSlots
    · simp only [hc, hs, if_true, decide_true]
    · simp only [hc, hs, if_true, if_false, decide_false, Bool.false_eq_true]
  · simp only [hc, if_false, Bool.false_eq_true]

/-- A notice of a class, with a slot for it or without (R24). -/
theorem notice_noted_effect {s : State} (hf : s.FramesFiled) (k : NoticeClass) (m : NoticeMsg) :
    Effect s (s.notice k m) (s.noted k) (s.noticeFrames k m) noActs := by
  obtain ⟨h1, h2, h3, h4, h5⟩ := State.notice_spec hf k m
  by_cases hs : s.slotFree = true
  · have hslots : s.Slots 1 := Nat.succ_le_of_lt (of_decide_eq_true hs)
    have he := notice_effect hf hslots k m
    have ef : s.announcement k m = s.noticeFrames k m := by
      unfold State.announcement State.noticeFrames
      rw [hs, Bool.and_true]
    rw [ef] at he
    exact ⟨h1, he.reports, he.acts, he.pass, he.filed, he.slots, he.places⟩
  · have hin : Effect s (s.notice k m) (s.notice k m) [] noActs := by
      have hl : ∀ d, s.postNotice d m = State.loseNotice { s with reports := { s.reports with nextSerial := s.reports.nextSerial + 1 } } :=
        fun d => if_neg hs
      unfold State.notice
      rw [hl]
      split <;> exact .inside hf rfl rfl rfl rfl
    refine ⟨h1, h2, fun l => (hin.acts l), h4, h5, hin.slots.trans (Nat.le_add_right _ _), hin.places⟩

/-- The part after a head's FAULT inhibit has changed (R124). -/
def State.headChanged (s : State) (l : Lane) (h : HeadId) (fault : Bool) : State :=
  (s.modHead l h fun x => { x with fault := fault }).noted .head

theorem headChanged_eq (s : State) (l : Lane) (h : HeadId) (fault : Bool) :
    s.headChanged l h fault = { s.modHead l h fun x => { x with fault := fault } with reports := s.reports.noted .head } :=
  noted_eq _ _

/-- A head report that changes the FAULT inhibit. -/
theorem headChanged_delivers {s : State} (hf : s.FramesFiled) {d src : Station} {p : List Byte} {l : Lane} {h : HeadId}
    {fault : Bool} (hp : parseActStatus p = some (.head l h fault)) (hne : fault ≠ (s.head l h).fault) :
    Delivers s (fun v => v.takeActStatus ⟨d, src, 0x32, p⟩) (fun v => v.headChanged l h fault)
      (s.noticeFrames .head (.head l h fault (s.head l h).booking.length)) where
  effect v := by
    have e : (s.beside v).headReport l h fault
        = ((s.beside v).modHead l h fun x => { x with fault := fault }).notice .head
            (.head l h fault (s.head l h).booking.length) := if_neg (Ne.symm hne)
    rw [takeActStatus_some hp]
    show Effect _ ((s.beside v).headReport l h fault) _ _ _
    rw [e]
    have hg : ((s.beside v).modHead l h fun x => { x with fault := fault }).FramesFiled := ⟨hf.act, hf.reports⟩
    have he := notice_noted_effect hg .head (.head l h fault (s.head l h).booking.length)
    exact ⟨he.quiet, he.reports, he.acts, he.pass, he.filed, he.slots, he.places⟩
  busy := takeActStatus_busy _
  drawn := by
    rw [headChanged_eq, headChanged_eq]
    rfl
  traffic t ht := by
    have hr : (s.choiceDrawn.withTraffic t).reports = s.reports := by
      show { s.reports with queued := t.reports.queued } = s.reports
      rw [ht]
    rw [headChanged_eq, headChanged_eq, hr]
    rfl
  dropped := by
    rw [headChanged_eq, headChanged_eq]
    rfl

/-! ### Another actuator's fault (R57) -/

/-- The part with another link and another count of choices. -/
def State.relinked (s : State) (k : Link) (n : Nat) : State := { s with link := k, freeCount := n }

theorem grantSlot_relinked (s : State) (k : Link) (n : Nat) (l : Lane) (tag : Tag) :
    (s.relinked k n).grantSlot l tag = (s.grantSlot l tag).relinked k n := by
  unfold State.grantSlot
  rw [show (s.relinked k n).piece? l tag = s.piece? l tag from rfl]
  cases s.piece? l tag with
  | none => rfl
  | some p => dsimp only; generalize p.length = m; cases m <;> rfl

theorem passSlotOn_relinked (s : State) (k : Link) (n : Nat) : (s.relinked k n).passSlotOn = s.passSlotOn.relinked k n := by
  unfold State.passSlotOn
  rw [show (s.relinked k n).scan = s.scan from rfl]
  split
  · rfl
  · rename_i l tag rest h
    exact grantSlot_relinked { s with scan := { s.scan with waitList := rest } } k n l tag

theorem passSlotsOn_relinked (m : Nat) (s : State) (k : Link) (n : Nat) :
    (s.relinked k n).passSlotsOn m = (s.passSlotsOn m).relinked k n := by
  induction m generalizing s with
  | zero => rfl
  | succ m ih => rw [State.passSlotsOn, State.passSlotsOn, passSlotOn_relinked, ih]

theorem withdrawLane_relinked (s : State) (k : Link) (n : Nat) (l : Lane) :
    (s.relinked k n).withdrawLane l = (s.withdrawLane l).relinked k n := by
  exact passSlotsOn_relinked _
    { s.modLane l fun x => { x with list := x.list.map jamScan } with
      scan := { s.scan with waitList := s.scan.waitList.filter fun e => !(e.1 == l) }
      scorer := { s.scorer with queues := s.scorer.queues.set l [] } } k n

theorem announced_relinked (s : State) (k : Link) (n : Nat) (c : NoticeClass) :
    (s.relinked k n).announced c = (s.announced c).relinked k n := by
  unfold State.announced
  rw [show (s.relinked k n).classOn c = s.classOn c from rfl]
  split <;> rfl

theorem batchTaken_relinked (s : State) (k : Link) (n : Nat) : (s.relinked k n).batchTaken = s.batchTaken.relinked k n := by
  unfold State.batchTaken
  rw [announced_relinked, show (s.relinked k n).reports = s.reports from rfl]
  split <;> rfl

/-- A jam does not see the link. -/
theorem jammed_relinked (s : State) (k : Link) (n : Nat) (l : Lane) :
    (s.relinked k n).jammed l = (s.jammed l).relinked k n := by
  have e : (s.relinked k n).modLane l LaneS.jammed = (s.modLane l LaneS.jammed).relinked k n := rfl
  unfold State.jammed
  rw [e, withdrawLane_relinked, batchTaken_relinked, announced_relinked]
  rfl

/-- A jam of the part beside other traffic is, but for the traffic, a jam of the part with a choice drawn. -/
theorem jammed_beside {s v : State} (l : Lane) (hp : v.link.counters.passDrops = s.link.counters.passDrops)
    (hn : v.freeCount = s.freeCount + 1) : ((s.beside v).jammed l).quiet = (s.choiceDrawn.jammed l).quiet := by
  have e1 : s.beside v = s.relinked (s.beside v).link v.freeCount := rfl
  have e2 : s.choiceDrawn = s.relinked s.link (s.freeCount + 1) := rfl
  rw [e1, e2, jammed_relinked, jammed_relinked, ← hn]
  show State.quiet (State.relinked _ _ _) = State.quiet (State.relinked _ _ _)
  unfold State.quiet State.relinked State.beside
  rw [hp]

theorem announced_beside (s v : State) (c : NoticeClass) : (s.beside v).announced c = (s.announced c).beside v := by
  unfold State.announced
  rw [show (s.beside v).classOn c = s.classOn c from rfl]
  split <;> rfl

theorem batchTaken_beside (s v : State) : (s.beside v).batchTaken = s.batchTaken.beside v := by
  unfold State.batchTaken
  rw [announced_beside, show (s.beside v).reports = s.reports from rfl]
  split <;> rfl

/-- What a jam sends depends on the link's addresses and on the reports. -/
theorem jamReports_beside (s v : State) (l : Lane) (cause : JamCause) :
    (s.beside v).jamReports l cause = s.jamReports l cause := by
  unfold State.jamReports
  rw [batchTaken_beside]
  rfl

section Fault

variable {s : State} {d src : Station} {p : List Byte} {l : Lane}

/-- A fault of an actuator other than a head jams an active lane. -/
theorem takeActStatus_jams (hp : parseActStatus p = some (.other l true)) {v : State}
    (ha : (v.lane l).state = .running ∨ (v.lane l).state = .draining) :
    v.takeActStatus ⟨d, src, 0x32, p⟩ = v.jam l .actuatorFault false := by
  rw [takeActStatus_some hp]
  exact if_pos ((LaneS.active_iff _).2 ha)

variable (hf : s.FramesFiled) (hlen : p.length ≤ 255) (hn : s.link.named d) (hp : parseActStatus p = some (.other l true))
  (ha : (s.lane l).state = .running ∨ (s.lane l).state = .draining) (hs : s.Slots 2)

include hf hlen hn hp ha hs

theorem fault_jams (hw : ¬s.link.wild d) : Jams (.actStatusFrame (frameBytes d src 0x32 p)) s s l .actuatorFault := by
  obtain ⟨h1, h2, h3, h4, h5, -⟩ := jam_spec hf l .actuatorFault false hs
  refine ⟨_, ?_, h1, h2, h3, h4, h5⟩
  have e := actStatusFrame_next (src := src) hlen hn
  rw [State.consume, if_neg (mt (broadcast_iff hn).1 hw)] at e
  exact e.trans (congrArg _ (takeActStatus_jams hp ha))

theorem fault_jams_forwarding (hw : s.link.wild d) (hi : s.FreeLinkIsIdle) (hroom : s.link.fifo.length < 4) :
    JamsForwarding (.actStatusFrame (frameBytes d src 0x32 p)) s (frameBytes d src 0x32 p) l .actuatorFault := by
  have e := actStatusFrame_next (src := src) hlen hn
  rw [State.consume, if_pos ((broadcast_iff hn).2 hw)] at e
  unfold State.inEitherOrder at e
  split at e
  case isTrue =>
    obtain ⟨hq, hr, hacts, hpass⟩ := offer_room (s := s.choiceDrawn) (unit := frameBytes d src 0x32 p)
      ⟨hf.act, hf.reports⟩ hroom
    generalize hv : s.choiceDrawn.offer (frameBytes d src 0x32 p) = v at hq hr hacts hpass
    have ev : v = s.beside v := by
      rw [← hv]
      exact offer_beside (s := s.choiceDrawn) hi _
    have hd : v.link.counters.passDrops = s.link.counters.passDrops :=
      congrArg LinkCounters.passDrops (State.quiet_fields hq).2.2.2.1
    have hc : v.freeCount = s.freeCount + 1 := (State.quiet_fields hq).2.2.2.2.2.2.2.2.2.2.2.2.1
    have hown : v.link.sendingOwn.filter (OutFrame.forLane l) = s.link.sendingOwn.filter (OutFrame.forLane l) := by
      have h := hacts l
      unfold State.actTraffic at h
      rw [show v.link.act = s.link.act from congrArg (fun w => w.link.act) ev] at h
      exact List.append_cancel_right h
    have hfv : v.FramesFiled := ev ▸ beside_filed hf
    have hsv : v.Slots 2 := by
      rw [ev]
      exact hs
    obtain ⟨h1, h2, h3, h4, h5, -⟩ := jam_spec hfv l .actuatorFault false hsv
    refine ⟨_, e.trans (congrArg _ ?_), h1.trans ?_, h2.trans ?_, h3.trans ?_, h4.trans (hacts _), h5.trans hpass⟩
    · show State.takeActStatus (s.choiceDrawn.offer _) _ = _
      rw [hv]
      refine takeActStatus_jams hp ?_
      rw [ev]
      exact ha
    · rw [ev]
      exact jammed_beside l hd hc
    · rw [hr]
      refine congrArg (s.reportTraffic ++ ·) ?_
      rw [ev]
      exact jamReports_beside s v l _
    · rw [hown]
      refine congrArg (s.link.sendingOwn.filter (OutFrame.forLane l) ++ ·) ?_
      rw [ev]
      rfl
  case isFalse =>
    obtain ⟨h1, h2, h3, h4, h5, h6⟩ := jam_spec (s := s.choiceDrawn) ⟨hf.act, hf.reports⟩ l .actuatorFault false hs
    obtain ⟨hq, hr, hacts, hpass⟩ := offer_room (unit := frameBytes d src 0x32 p) h6
      (fifo_room (s := s.choiceDrawn) hi (jam_busy s.choiceDrawn l .actuatorFault false) h5 hroom)
    refine ⟨_, e.trans (congrArg _ ?_), hq.trans h1,
      hr.trans (h2.trans (congrArg (s.reportTraffic ++ ·) (jamReports_beside s s.choiceDrawn l _))), (hacts _).trans h3, (hacts _).trans h4,
      hpass.trans (congrArg (· ++ [_]) h5)⟩
    exact congrArg (State.offer · _) (takeActStatus_jams (v := s.choiceDrawn) hp ha)

theorem fault_jams_dropping (hw : s.link.wild d) (hi : s.FreeLinkIsIdle) (hfull : 4 ≤ s.link.fifo.length) :
    Jams (.actStatusFrame (frameBytes d src 0x32 p)) s s.choiceDrawn.passDropped l .actuatorFault := by
  have e := actStatusFrame_next (src := src) hlen hn
  rw [State.consume, if_pos ((broadcast_iff hn).2 hw)] at e
  unfold State.inEitherOrder at e
  split at e
  case isTrue =>
    obtain ⟨h1, h2, h3, h4, h5, -⟩ := jam_spec (s := s.choiceDrawn.passDropped) ⟨hf.act, hf.reports⟩ l .actuatorFault false hs
    refine ⟨_, e.trans (congrArg _ ?_), h1, h2, h3, h4, h5⟩
    show State.takeActStatus (s.choiceDrawn.offer _) _ = _
    rw [offer_full (s := s.choiceDrawn) hfull]
    exact takeActStatus_jams (v := s.choiceDrawn.passDropped) hp ha
  case isFalse =>
    have hb : s.link.sending ≠ none := fun hz => by
      rw [(hi hz).2.1] at hfull
      exact absurd hfull (by decide)
    obtain ⟨h1, h2, h3, h4, h5, -⟩ := jam_spec (s := s.choiceDrawn) ⟨hf.act, hf.reports⟩ l .actuatorFault false hs
    have hfifo : 4 ≤ (s.choiceDrawn.jam l .actuatorFault false).link.fifo.length := by
      rw [(jam_busy s.choiceDrawn l .actuatorFault false hb).2]
      exact hfull
    refine ⟨(s.choiceDrawn.jam l .actuatorFault false).passDropped, e.trans (congrArg _ ?_),
      (quiet_passDropped h1).trans ?_, h2.trans (congrArg (s.reportTraffic ++ ·) ?_), h3, h4, h5⟩
    · show State.offer (State.takeActStatus s.choiceDrawn _) _ = _
      rw [takeActStatus_jams (v := s.choiceDrawn) hp ha, offer_full hfifo]
    · rw [show s.choiceDrawn.passDropped = s.relinked s.passDropped.link (s.freeCount + 1) from rfl,
        show s.choiceDrawn = s.relinked s.link (s.freeCount + 1) from rfl, jammed_relinked, jammed_relinked]
      rfl
    · exact (jamReports_beside s s.choiceDrawn l _).trans (jamReports_beside s s.choiceDrawn.passDropped l _).symm

end Fault

/-! ### The statement -/

theorem headReport_same {s : State} {d src : Station} {p : List Byte} {l : Lane} {h : HeadId} {fault : Bool}
    (hp : parseActStatus p = some (.head l h fault)) (he : fault = (s.head l h).fault) (v : State) :
    (s.beside v).takeActStatus ⟨d, src, 0x32, p⟩ = s.beside v := by
  rw [takeActStatus_some hp]
  exact if_pos he.symm

/-- Settles O17: head reports by change, other reports by the lane's state and the copy's way. -/
theorem actStatusReachesHeadOrLane : Obligations.ActStatusReachesHeadOrLane := by
  intro s d src p hf hp hn
  have next := actStatusFrame_next (src := src) hp hn
  refine ⟨fun l h fault hpl => ⟨fun he => ?same, fun he => ?change⟩,
    fun l a ha => ⟨fun hpl => ?ok, fun hpl => ⟨fun hst => ?idle, fun hst hw hs => ?jam, fun hst hw hi hs =>
      ⟨fun hroom => ?forward, fun hfull => ?drop⟩⟩⟩, fun hpl => ?malformed⟩
  case same => exact .of_delivers hf hn (idle_delivers hf (headReport_same (hpl ▸ parseActStatus_head l h fault) he)) next
  case change => exact .of_delivers hf hn (headChanged_delivers hf (hpl ▸ parseActStatus_head l h fault) he) next
  case ok =>
    have h := (congrArg parseActStatus hpl).trans (parseActStatus_other l ha false)
    exact .of_delivers hf hn (idle_delivers hf fun v => takeActStatus_some h _) next
  case idle =>
    have h := (congrArg parseActStatus hpl).trans (parseActStatus_other l ha true)
    refine .of_delivers hf hn (idle_delivers hf fun v => (takeActStatus_some h _).trans (if_neg ?_)) next
    intro hact
    have := (LaneS.active_iff (s.lane l)).1 hact
    rcases hst with e | e <;> rw [e] at this <;> simp at this
  case jam => exact fault_jams hf hp hn ((congrArg parseActStatus hpl).trans (parseActStatus_other l ha true)) hst hs hw
  case forward =>
    exact fault_jams_forwarding hf hp hn ((congrArg parseActStatus hpl).trans (parseActStatus_other l ha true)) hst hs hw hi hroom
  case drop =>
    exact fault_jams_dropping hf hp hn ((congrArg parseActStatus hpl).trans (parseActStatus_other l ha true)) hst hs hw hi hfull
  case malformed => exact .of_delivers hf hn (malformed_delivers hf (parseActStatus_none hpl)) next

end Sys2Proof.Machine

/-! O25 to O27: slots and jobs, samples and references, SAMPLE frames. -/

namespace Sys2Proof.Machine

/-! ### Slots (R69 to R73) -/

theorem slotsHeld_eq (s : State) :
    s.slotsHeld = s.scorer.queues.a.length + s.scorer.queues.b.length + if s.scorer.engine = none then 0 else 1 := by
  unfold State.slotsHeld
  cases s.scorer.engine <;> rfl

theorem askSlot_full {s : State} {l : Lane} {tag : Tag} (h : 8 ≤ s.slotsHeld) :
    s.askSlot l tag
      = { s with scan := { s.scan with waitList := s.scan.waitList ++ [(l, tag)] } }.modPiece l tag fun q =>
        { q with scan := .slotWait } := if_neg (Nat.not_lt.2 h)

theorem askSlot_free {s : State} {l : Lane} {tag : Tag} (h : s.slotsHeld < 8) : s.askSlot l tag = s.grantSlot l tag := if_pos h

theorem passSlotOn_nil {s : State} (h : s.scan.waitList = []) : s.passSlotOn = s := by
  unfold State.passSlotOn
  rw [h]

theorem passSlotOn_cons {s : State} {l : Lane} {tag : Tag} {rest : List (Lane × Tag)} (h : s.scan.waitList = (l, tag) :: rest) :
    s.passSlotOn = { s with scan := { s.scan with waitList := rest } }.grantSlot l tag := by
  unfold State.passSlotOn
  rw [h]

/-- A grant copies the record's job and leaves the record QUEUED (R71). -/
theorem grantSlot_some {s : State} {l : Lane} {tag : Tag} {p : Piece} {n : Nat} (hp : s.piece? l tag = some p)
    (hn : p.length = some n) :
    s.grantSlot l tag
      = { s with
          scorer :=
            { s.scorer with
              queues := s.scorer.queues.set l (s.scorer.queues.get l ++ [makeJob l (s.geometry l) (s.lane l) p n]) } }.modPiece l
        tag fun q => { q with scan := .queued } := by
  unfold State.grantSlot
  simp only [hp, hn]

theorem grantSlot_slotsHeld {s : State} {l : Lane} {tag : Tag} {p : Piece} {n : Nat} (hp : s.piece? l tag = some p)
    (hn : p.length = some n) : (s.grantSlot l tag).slotsHeld = s.slotsHeld + 1 := by
  rw [grantSlot_some hp hn]
  have h := slotsHeld_setQueue s l (s.scorer.queues.get l ++ [makeJob l (s.geometry l) (s.lane l) p n])
  rw [List.length_append, List.length_singleton] at h
  show State.slotsHeld { s with scorer := { s.scorer with queues := _ } } = _
  omega

/-- The records that ask after a filing, in list order (R69). -/
theorem askReady_eq (s : State) (l : Lane) :
    s.askReady l = ((s.lane l).list.filter (sampleReady (s.lane l))).foldl (fun u p => u.askSlot l p.tag) s := by
  unfold State.askReady
  rw [List.foldl_map]

/-- Settles O25: each clause by its rule, the readiness test and the job unfolded. -/
theorem slotsAreGrantedInTheOrderAsked : Obligations.SlotsAreGrantedInTheOrderAsked := by
  intro s l tag
  refine ⟨askSlot_full, askSlot_free, passSlotOn_nil, fun rest => passSlotOn_cons, ⟨rfl, fun k => rfl⟩, slotsHeld_eq s, ?_,
    fun p n hp hn => ⟨grantSlot_some hp hn, grantSlot_slotsHeld hp hn⟩⟩
  intro x complete ready
  have hc (trail : Pos) : samplesComplete x.highMarks trail = complete trail := by
    simp only [complete, samplesComplete, List.all_cons, List.all_nil, Bool.and_true, Bool.and_assoc]
    rfl
  have hr : sampleReady x = ready := by
    funext p
    show sampleReady x p = ready p
    simp only [sampleReady, ready, hc]
    rfl
  rw [askReady_eq, ← hr]

/-! ### Samples and references (R62 to R68) -/

theorem ringIndex_eq (p : Pos) : ringIndex p = p.toNat / 2 % 1024 := rfl

theorem wanted_some {r : Ring} {w : Pos} {e : RingEntry} (h : Ring.read r (w.toNat / 2 % 1024) = some e) :
    Ring.wanted r w = if e.pos.toNat / 2 = w.toNat / 2 then some e.sample else none := by
  unfold Ring.wanted
  rw [ringIndex_eq, h]
  rfl

theorem wanted_none {r : Ring} {w : Pos} (h : Ring.read r (w.toNat / 2 % 1024) = none) : Ring.wanted r w = none := by
  unfold Ring.wanted
  rw [ringIndex_eq, h]

theorem takeSample_ahead {s : State} {l : Lane} {b : Band} {q : Pos} {raw : Sample}
    (h : 2048 < signedDistance q (s.lane l).belt) :
    s.takeSample l b q raw = s.count l fun c => { c with sampleRange := satInc Config.max32 c.sampleRange } := if_pos h

theorem takeSample_filed {s : State} {l : Lane} {b : Band} {q : Pos} {raw : Sample}
    (h : signedDistance q (s.lane l).belt ≤ 2048) :
    s.takeSample l b q raw
      = (if (s.lane l).gapSample (s.geometry l) q then
          (s.modLane l (LaneS.file b q (clampSample raw))).updateRefs l b (clampSample raw)
        else s.modLane l (LaneS.file b q (clampSample raw))).askReady l := if_neg (Int.not_lt.2 h)

/-- A reference moves by the floor of a sixteenth of the difference (R68). -/
theorem moveRef_eq (ref z : Nat) : moveRef ref z = ((ref : Int) + ((z : Int) - (ref : Int)).fdiv 16).toNat := by
  rw [Int.fdiv_eq_ediv_of_nonneg _ (by decide)]
  rfl

theorem guarded_iff (g : Geometry) (p : Piece) (q : Pos) :
    guarded g p q = true ↔
      let a := p.lead - BitVec.ofNat 24 g.refGuard
      match p.length with
      | some n => (q - a).toNat < (p.lead + BitVec.ofNat 24 n + BitVec.ofNat 24 g.refGuard - a).toNat
      | none => (q - a).toNat < 8388608 := by
  unfold guarded
  cases p.length <;> exact decide_eq_true_iff

/-- Settles O27: the ring's rules, and one sample by its range and by the records that guard it. -/
theorem sampleIsFiledAndMovesReferences : Obligations.SampleIsFiledAndMovesReferences := by
  refine ⟨⟨fun r p x hc => ⟨Ring.file_canonical hc p x, ?stands, fun i hi => ?stays⟩,
    fun r w => ⟨fun e => wanted_some, wanted_none⟩⟩, ?_⟩
  case stands => exact (Ring.read_write hc _ _ _).trans (if_pos rfl)
  case stays => exact (Ring.read_write hc _ _ _).trans (if_neg hi)
  intro s l b q raw x g v moved inSpan filed
  have hgap : x.gapSample g q = true ↔ ∀ p ∈ x.list, ¬inSpan p := by
    unfold LaneS.gapSample
    rw [Bool.not_eq_true', List.any_eq_false]
    exact forall₂_congr fun p _ => not_congr (guarded_iff g p q)
  refine ⟨takeSample_ahead, fun h hin => ?guarded, fun h hout => ?gap⟩
  case guarded =>
    obtain ⟨p, hp, hspan⟩ := hin
    rw [takeSample_filed h, if_neg fun hg => hgap.1 hg p hp hspan]
    rfl
  case gap =>
    rw [takeSample_filed h, if_pos (hgap.2 hout)]
    have hm : moveRef = moved := funext₂ moveRef_eq
    unfold State.updateRefs State.countWindow Refs.move
    rw [State.modLane_modLane, State.modLane_modLane, hm]
    rfl

/-! ### SAMPLE frames (R7, R62) -/

/-- The bytes of samples are read back (12.1). -/
theorem readSamples_flatMap {xs : List Sample} (h : ∀ x ∈ xs, x.ph < 65536 ∧ x.fl < 65536) :
    readSamples (xs.flatMap fun x => beBytes 2 x.ph ++ beBytes 2 x.fl) = xs := by
  induction xs with
  | nil => rfl
  | cons x xs ih =>
    obtain ⟨hp, hl⟩ := h x List.mem_cons_self
    have e : readSamples ((x :: xs).flatMap fun x => beBytes 2 x.ph ++ beBytes 2 x.fl)
        = ⟨beNat (beBytes 2 x.ph), beNat (beBytes 2 x.fl)⟩
          :: readSamples (xs.flatMap fun x => beBytes 2 x.ph ++ beBytes 2 x.fl) := rfl
    rw [e, ih fun y hy => h y (List.mem_cons_of_mem _ hy), beNat_beBytes_two hp, beNat_beBytes_two hl]

theorem samples_length (xs : List Sample) : (xs.flatMap fun x => beBytes 2 x.ph ++ beBytes 2 x.fl).length = 4 * xs.length := by
  induction xs with
  | nil => rfl
  | cons x xs ih =>
    rw [List.flatMap_cons, List.length_append, ih, List.length_cons]
    simp [beBytes]
    omega

theorem parseSamples_some {k p2 p1 p0 n : Byte} {rest : List Byte} {b : Band} (hb : bandOf k = some b) (h1 : 1 ≤ n.toNat)
    (h60 : n.toNat ≤ 60) (hr : rest.length = 4 * n.toNat) :
    parseSamples (k :: p2 :: p1 :: p0 :: n :: rest) = some ⟨b, BitVec.ofNat 24 (beNat [p2, p1, p0]), readSamples rest⟩ := by
  unfold parseSamples
  simp only [hb]
  exact if_pos ⟨h1, h60, hr⟩

theorem parseSamples_valid {k : Byte} {b : Band} {q : Pos} {xs : List Sample} (hb : bandOf k = some b) (h1 : 1 ≤ xs.length)
    (h60 : xs.length ≤ 60) (hx : ∀ x ∈ xs, x.ph < 65536 ∧ x.fl < 65536) :
    parseSamples ([k] ++ posBytes q ++ [byte xs.length] ++ (xs.flatMap fun x => beBytes 2 x.ph ++ beBytes 2 x.fl))
      = some ⟨b, q, xs⟩ := by
  have hn : (byte xs.length).toNat = xs.length := byte_toNat (by omega)
  have hq : BitVec.ofNat 24 (beNat (posBytes q)) = q := by
    unfold posBytes
    rw [beNat_beBytes_three q.isLt, BitVec.ofNat_toNat, BitVec.setWidth_eq]
  have e := beBytes_three q.toNat
  unfold posBytes at hq ⊢
  rw [e] at hq ⊢
  refine (parseSamples_some hb (hn.symm ▸ h1) (hn.symm ▸ h60) ?_).trans ?_
  · rw [hn]
    exact samples_length xs
  · rw [hq]
    exact congrArg (fun ys => some (SampleRun.mk b q ys)) (readSamples_flatMap hx)

theorem bandOf_eq_none {b : Byte} (h : 3 < b.toNat) : bandOf b = none := by
  unfold bandOf
  split
  iterate 4
    · omega
  rfl

theorem parseSamples_none {p : List Byte}
    (h : ¬∃ n, 1 ≤ n ∧ n ≤ 60 ∧ p.length = 5 + 4 * n ∧ (p.getD 4 0).toNat = n ∧ (p.getD 0 0).toNat ≤ 3) :
    parseSamples p = none := by
  unfold parseSamples
  split
  · rename_i b p2 p1 p0 n rest
    split
    · rename_i band hb
      refine if_neg fun ⟨h1, h60, hl⟩ => h ⟨n.toNat, h1, h60, ?_, rfl, ?_⟩
      · simp only [List.length_cons]
        omega
      · by_contra hbig
        have hnone : bandOf b = none := bandOf_eq_none (Nat.not_le.1 hbig)
        rw [hnone] at hb
        cases hb
    · rfl
  · rfl

/-- The samples of a frame, each at its own position (R62). -/
theorem takeSamples_eq (l : Lane) (b : Band) (q : Pos) (xs : List Sample) (k : Nat) (s : State) :
    s.takeSamples l b (q + BitVec.ofNat 24 (2 * k)) xs
      = (xs.zipIdx k).foldl (fun u e => u.takeSample l b (q + BitVec.ofNat 24 (2 * e.2)) e.1) s := by
  induction xs generalizing k s with
  | nil => rfl
  | cons x xs ih =>
    have e : q + BitVec.ofNat 24 (2 * k) + 2 = q + BitVec.ofNat 24 (2 * (k + 1)) := by
      rw [Nat.mul_add, BitVec.ofNat_add, ← BitVec.add_assoc]
      rfl
    rw [List.zipIdx_cons, List.foldl_cons, ← ih, ← e]
    rfl

/-- A SAMPLE frame delivered to one lane, each sample at its own position (R62). -/
theorem deliverSamples_eq (s : State) (l : Lane) (b : Band) (q : Pos) (xs : List Sample) :
    s.deliverSamples l ⟨b, q, xs⟩
      = if (s.lane l).active = true then
          xs.zipIdx.foldl (fun u e => u.takeSample l b (q + BitVec.ofNat 24 (2 * e.2)) e.1) s
        else s := by
  unfold State.deliverSamples
  rw [← takeSamples_eq l b q xs 0 s, show q + BitVec.ofNat 24 (2 * 0) = q from BitVec.add_zero q]

theorem scanSourceIs_iff (g : Geometry) (src : Station) : scanSourceIs g src = true ↔ g.loaded = true ∧ g.scanSource = src := by
  simp [scanSourceIs]

section Frame

variable {s : State} {d src : Station} {p : List Byte} {l : Lane}

theorem sampleFrom_of_lane (h1 : (s.geometry l).loaded = true) (h2 : (s.geometry l).scanSource = src) :
    s.sampleFrom src = true := by
  have h := (scanSourceIs_iff (s.geometry l) src).2 ⟨h1, h2⟩
  unfold State.sampleFrom
  cases l with
  | a => rw [h, Bool.true_or]
  | b => rw [h, Bool.or_true]

theorem sampleFrame_next (hp : p.length ≤ 255) (h1 : (s.geometry l).loaded = true) (h2 : (s.geometry l).scanSource = src) :
    exec (.sampleFrame (frameBytes d src 0x11 p)) s
      = .next (match parseSamples p with | some r => s.deliverToLanes src r | none => s.formatError) := by
  show execSampleFrame _ s = _
  unfold execSampleFrame
  rw [show frameOfKind kindSample (frameBytes d src 0x11 p) = some ⟨d, src, 0x11, p⟩ from frameOfKind_frameBytes _ _ _ hp]
  exact congrArg _ (if_pos (sampleFrom_of_lane h1 h2))

theorem deliverToLanes_one {r : SampleRun} (h : scanSourceIs (s.geometry l) src = true)
    (ho : scanSourceIs (s.geometry (otherLane l)) src = false) : s.deliverToLanes src r = s.deliverSamples l r := by
  unfold State.deliverToLanes
  cases l with
  | a =>
    rw [h, show scanSourceIs (s.geometry .b) src = false from ho]
  | b =>
    rw [h, show scanSourceIs (s.geometry .a) src = false from ho]

theorem deliverToLanes_both {r : SampleRun} (h : scanSourceIs (s.geometry l) src = true)
    (ho : scanSourceIs (s.geometry (otherLane l)) src = true) :
    s.deliverToLanes src r = (s.choiceDrawn.deliverSamples l r).deliverSamples (otherLane l) r
      ∨ s.deliverToLanes src r = (s.choiceDrawn.deliverSamples (otherLane l) r).deliverSamples l r := by
  have e : s.deliverToLanes src r = s.inEitherOrder (fun s => s.deliverSamples .a r) (fun s => s.deliverSamples .b r) := by
    unfold State.deliverToLanes
    cases l with
    | a => rw [h, show scanSourceIs (s.geometry .b) src = true from ho]
    | b => rw [h, show scanSourceIs (s.geometry .a) src = true from ho]
  rw [e]
  unfold State.inEitherOrder
  cases l with
  | a =>
    split
    · exact .inl rfl
    · exact .inr rfl
  | b =>
    split
    · exact .inr rfl
    · exact .inl rfl

end Frame

/-- Settles O26: a frame of the right shape for one lane or both, and one of the wrong shape. -/
theorem sampleFramesAreTakenInPayloadOrder : Obligations.SampleFramesAreTakenInPayloadOrder := by
  intro s d src p l hlen h1 h2
  have next := sampleFrame_next (d := d) hlen h1 h2
  refine ⟨fun k b q xs hb hx1 hx60 hx hpl => ?shaped, fun h => ?misshaped⟩
  case shaped =>
    rw [hpl, parseSamples_valid hb hx1 hx60 hx, ← hpl] at next
    intro take
    have ht (m : Lane) (u : State) : u.deliverSamples m ⟨b, q, xs⟩ = take m u := deliverSamples_eq u m b q xs
    have hl := (scanSourceIs_iff (s.geometry l) src).2 ⟨h1, h2⟩
    refine ⟨fun ho => ?one, fun o1 o2 => ?both⟩
    case one =>
      have ho : scanSourceIs (s.geometry (otherLane l)) src = false := by
        simpa using mt (scanSourceIs_iff _ src).1 ho
      exact next.trans (congrArg _ ((deliverToLanes_one hl ho).trans (ht l s)))
    case both =>
      have ho := (scanSourceIs_iff (s.geometry (otherLane l)) src).2 ⟨o1, o2⟩
      simp only [← ht]
      exact (deliverToLanes_both hl ho).imp (fun h => next.trans (congrArg _ h)) fun h => next.trans (congrArg _ h)
  case misshaped =>
    rw [parseSamples_none h] at next
    exact next

end Sys2Proof.Machine

/-! O19, O20 and O23: ACT frames over a full queue, the belt, and the limits of the eye. -/

namespace Sys2Proof.Machine

/-! ### ACT frames (R11, R113) -/

theorem placeAll_cons {s : State} {l : Lane} (h : (s.lane l).state ≠ .jammed) (m : ActMsg) (ms : List ActMsg) :
    s.placeAll l (m :: ms) = (s.placeAct l m).placeAll l ms := by
  show ms.foldl _ (if (s.lane l).state = .jammed then s else s.placeAct l m) = _
  rw [if_neg h]
  rfl

/-- Once the lane has jammed the rest of a decision's frames are discarded (R113). -/
theorem placeAll_jammed {s : State} {l : Lane} (h : (s.lane l).state = .jammed) (ms : List ActMsg) : s.placeAll l ms = s := by
  induction ms with
  | nil => rfl
  | cons m ms ih =>
    show ms.foldl _ (if (s.lane l).state = .jammed then s else s.placeAct l m) = _
    rw [if_pos h]
    exact ih

theorem not_jammed_of_active {x : LaneS} (h : x.active = true) : x.state ≠ .jammed := fun he => by
  rcases (LaneS.active_iff x).1 h with h | h <;> rw [he] at h <;> cases h

/-- The frame is a FEED frame (R160). -/
def ActMsg.isFeed : ActMsg → Bool
  | .feed _ => true
  | _ => false

theorem placeAct_over {s : State} {l : Lane} (h : 8 ≤ (s.link.act.get l).length) (ha : (s.lane l).active = true)
    (m : ActMsg) : s.placeAct l m = s.jam l .actOverrun m.isFeed := by
  rw [placeAct_full h m, if_pos ha]
  cases m <;> rfl

/-- A frame over a full queue of an active lane jams it, with what every jam does (R11, R58). -/
theorem placeAct_jams {s : State} (hf : s.FramesFiled) {l : Lane} (h : 8 ≤ (s.link.act.get l).length)
    (ha : (s.lane l).active = true) (hs : s.Slots 2) (m : ActMsg) {fromFeed : Bool}
    (hm : m.isFeed = fromFeed) :
    (s.placeAct l m).quiet = (s.jammed l).quiet
      ∧ (s.placeAct l m).reportTraffic = s.reportTraffic ++ s.jamReports l .actOverrun
      ∧ (s.placeAct l m).actTraffic l = s.link.sendingOwn.filter (OutFrame.forLane l) ++ s.jamActs l fromFeed
      ∧ (s.placeAct l m).actTraffic (otherLane l) = s.actTraffic (otherLane l)
      ∧ (s.placeAct l m).passTraffic = s.passTraffic := by
  have e : s.placeAct l m = s.jam l .actOverrun fromFeed := hm ▸ placeAct_over h ha m
  obtain ⟨h1, h2, h3, h4, h5, -⟩ := jam_spec hf l .actOverrun fromFeed hs
  rw [e]
  exact ⟨h1, h2, h3, h4, h5⟩

/-- Settles O19: a place, no place in an active lane or in another, and the frames of one decision. -/
theorem fullActQueueLosesFrameAndJams : Obligations.FullActQueueLosesFrameAndJams := by
  intro s l m hf t jams
  refine ⟨fun h => ?room, fun h => ⟨fun ha hs => ⟨fun hm => ?other, fun r hm => ?feed, fun ms => ?rest⟩, fun ha => ?idle⟩,
    fun ms hj => placeAll_cons hj m ms⟩
  case room =>
    have e : t = s.joinAct l m := placeAct_room h m
    obtain ⟨h1, h2, h3, h4, -⟩ := State.joinAct_spec hf l m
    rw [e]
    refine ⟨h1, h2, (h3 l).trans (by rw [if_pos rfl]), (h3 (otherLane l)).trans ?_, h4⟩
    rw [if_neg (by cases l <;> nofun), List.append_nil]
  case other =>
    refine placeAct_jams hf h ha hs m ?_
    cases m with
    | feed r => exact absurd rfl (hm r)
    | _ => rfl
  case feed =>
    subst hm
    exact placeAct_jams hf h ha hs _ rfl
  case rest =>
    have e : t = s.jam l .actOverrun m.isFeed := placeAct_over h ha m
    rw [placeAll_cons (not_jammed_of_active ha)]
    refine placeAll_jammed ?_ ms
    show (t.lane l).state = _
    rw [e]
    exact jam_lane_state ..
  case idle =>
    show s.placeAct l m = s
    rw [placeAct_full h m, if_neg (by rw [ha]; exact Bool.false_ne_true)]

/-! ### The belt (R36, R37, R44) -/

theorem reached_iff (q p : Pos) : reached q p = true ↔ (q - p).toNat < 8388608 := decide_eq_true_iff

theorem beyond_iff (q p : Pos) : beyond q p = true ↔ (q - p).toNat < 8388608 ∧ q ≠ p := by
  unfold beyond
  rw [Bool.and_eq_true, reached_iff, bne_iff_ne]

/-- A position that one step of the belt reaches is the one it comes to. -/
theorem reached_step {q p : Pos} (h : reached q p = false) (h1 : reached (q + 1) p = true) : p = q + 1 := by
  have h0 : ¬(q - p).toNat < 8388608 := fun hh => by
    rw [(reached_iff q p).2 hh] at h
    cases h
  have h1 := (reached_iff (q + 1) p).1 h1
  bv_omega

theorem markForward_eq (belt : Pos) (mark : Option Pos) :
    markForward belt mark = mark.map fun m => if (belt - m).toNat < 8388608 then belt else m := by
  unfold markForward
  congr 1
  funext m
  by_cases he : belt = m
  · subst he
    simp
  · exact if_congr ((beyond_iff belt m).trans (and_iff_left he)) rfl rfl

theorem beltStep_back (s : State) (l : Lane) :
    exec (.beltStep l false) s
      = .next (if LaneS.reversed (s.geometry l) { s.lane l with belt := (s.lane l).belt - 1 } then
          (s.modLane l fun x => { x with belt := x.belt - 1 }).jamCause l .reverse
        else s.modLane l fun x => { x with belt := x.belt - 1 }) := by
  show execBeltStep l false s = _
  unfold execBeltStep
  simp only [State.modLane_lane, Bool.not_false, Bool.true_and]
  rfl

theorem jamCause_inactive {s : State} {l : Lane} (h : (s.lane l).active = false) (cause : JamCause) :
    s.jamCause l cause = s := if_neg (by rw [h]; exact Bool.false_ne_true)

/-- A step whose effect is followed by a jam cause in an active lane jams it. -/
theorem Jams.of_jamCause {i : Instr} {s u : State} {l : Lane} {cause : JamCause} (hf : u.FramesFiled) (hs : u.Slots 2)
    (ha : (u.lane l).active = true) (h : exec i s = .next (u.jamCause l cause))
    (ht : u.link = s.link ∧ u.reports = s.reports) : Jams i s u l cause := by
  obtain ⟨h1, h2, h3, h4, h5, -⟩ := jam_spec hf l cause false hs
  obtain ⟨tl, tr⟩ := ht
  have e : u.jamCause l cause = u.jam l cause false := if_pos ha
  refine ⟨_, h.trans (congrArg _ e), h1, ?_, ?_, ?_, ?_⟩
  · rw [h2, State.reportTraffic, tl, tr]
    rfl
  · rw [h3, tl]
  · rw [h4, State.actTraffic, tl]
    rfl
  · rw [h5, State.passTraffic, tl]
    rfl

/-- Settles O20: the half-range tests, the step forward, and the step back by the forward mark. -/
theorem beltStepMovesBeltByHalfRange : Obligations.BeltStepMovesBeltByHalfRange := by
  refine ⟨⟨fun p q => reached_iff q p, fun p q => beyond_iff q p, fun a b => rfl,
    fun q p p' h1 h2 h3 h4 => (reached_step h1 h2).trans (reached_step h3 h4).symm⟩, fun s l => ⟨?forward, ?back⟩⟩
  case forward =>
    have e : LaneS.step true = fun x : LaneS =>
        { x with
          belt := x.belt + 1
          forwardMark := x.forwardMark.map fun m => if (x.belt + 1 - m).toNat < 8388608 then x.belt + 1 else m } := by
      funext x
      unfold LaneS.step
      rw [if_pos rfl, markForward_eq]
    show execBeltStep l true s = _
    unfold execBeltStep
    rw [e]
    rfl
  case back =>
    intro w
    rw [beltStep_back]
    refine ⟨fun h => congrArg _ (if_neg ?_), fun ha => ?_, fun m hm hd ha hf hs => ?_⟩
    · unfold LaneS.reversed
      dsimp only
      cases hm : (s.lane l).forwardMark with
      | none => exact Bool.false_ne_true
      | some m => exact mt of_decide_eq_true (Nat.not_lt.2 (h m hm))
    · have hw : w.jamCause l .reverse = w := jamCause_inactive (by rw [State.modLane_lane]; exact ha) _
      rw [show (s.modLane l fun x => { x with belt := x.belt - 1 }).jamCause l .reverse = w from hw]
      exact congrArg _ (ite_self _)
    · refine .of_jamCause (u := w) ⟨hf.act, hf.reports⟩ hs (by rw [State.modLane_lane]; exact ha) ?_ ⟨rfl, rfl⟩
      rw [beltStep_back]
      refine congrArg _ (if_pos ?_)
      unfold LaneS.reversed
      dsimp only
      rw [hm]
      exact decide_eq_true hd

/-! ### The limits of the eye (R50, R56) -/

theorem holdEnd_next (s : State) (l : Lane) :
    exec (.holdEnd l) s = .next (if (s.lane l).holdEndDue then s.modLane l fun x => { x with eye := .armed } else s) := rfl

theorem holdEndDue_eq {x : LaneS} {h : Pos} {c : Bool} (he : x.eye = .gapHold h c) :
    x.holdEndDue = (x.active && reached x.belt h) := by
  unfold LaneS.holdEndDue
  rw [he]

theorem coveredLimit_next (s : State) (l : Lane) :
    exec (.coveredLimit l) s
      = .next (if (s.lane l).coveredLimitDue (s.geometry l) then s.jamCause l .eyeBlocked else s) := rfl

theorem coveredLimitDue_eq {x : LaneS} {st : Pos} (g : Geometry) (he : x.eye = .covered st ∨ x.eye = .passing st) :
    x.coveredLimitDue g = (x.active && reached x.belt (st + BitVec.ofNat 24 (g.maxCovered + 1))) := by
  unfold LaneS.coveredLimitDue
  rcases he with he | he <;> rw [he] <;> rfl

/-- Settles O23: the hold end and the covered limit, due or not. -/
theorem eyeLimitsArmOrJam : Obligations.EyeLimitsArmOrJam := by
  intro s l x
  refine ⟨fun h c he ha hr => ?_, fun h c he hn => ?_, fun st he => ⟨fun ha hr hf hs => ?_, fun hn => ?_⟩⟩
  · rw [holdEnd_next, holdEndDue_eq he]
    exact congrArg _ (if_pos (Bool.and_eq_true_iff.2 ⟨ha, hr⟩))
  · rw [holdEnd_next, holdEndDue_eq he]
    exact congrArg _ (if_neg (by rcases hn with hn | hn <;> simp [hn]))
  · refine .of_jamCause hf hs ha ?_ ⟨rfl, rfl⟩
    rw [coveredLimit_next, coveredLimitDue_eq _ he]
    exact congrArg _ (if_pos (Bool.and_eq_true_iff.2 ⟨ha, hr⟩))
  · rw [coveredLimit_next, coveredLimitDue_eq _ he]
    exact congrArg _ (if_neg (by rcases hn with hn | hn <;> simp [hn]))

end Sys2Proof.Machine

/-! O21 and O24: leading edges, the tracker's track events, and scans that are abandoned, settled or withdrawn. -/

namespace Sys2Proof.Machine

/-! ### Leading edges (R49 to R52) -/

/-- The part with the input of a lane's eye covered. -/
def State.shaded (s : State) (l : Lane) : State := s.modLane l fun x => { x with eyeCovered := true }

theorem shaded_modLane (s : State) (l : Lane) (f : LaneS → LaneS) :
    (s.shaded l).modLane l f = s.modLane l fun x => f { x with eyeCovered := true } := State.modLane_modLane s l _ f

section Leading

variable {s : State} {l : Lane}

theorem leadingEdge_covered (h : (s.lane l).eyeCovered = true) : exec (.leadingEdge l) s = .next s := if_pos h

theorem leadingEdge_next (h : (s.lane l).eyeCovered = false) :
    exec (.leadingEdge l) s
      = .next
        (match (s.lane l).eye with
        | .armed => (s.shaded l).edgeArmed l
        | .gapHold _ c => (s.shaded l).edgeInGap l c
        | .idle | .covered _ | .passing _ => s.shaded l) :=
  if_neg (by rw [h]; exact Bool.false_ne_true)

theorem canCapture_iff (x : LaneS) :
    x.canCapture = true ↔
      x.state = .running ∧ x.list.length < 24 ∧ ∀ p, x.list.getLast? = some p → beyond x.belt p.lead = true := by
  unfold LaneS.canCapture
  rw [Bool.and_eq_true, Bool.and_eq_true, beq_iff_eq, decide_eq_true_eq, and_assoc, show Config.listDepth = 24 from rfl]
  refine and_congr_right fun _ => and_congr_right fun _ => ?_
  cases x.list.getLast? with
  | none => exact iff_of_true rfl fun q hq => nomatch hq
  | some p =>
    refine ⟨fun h q hq => ?_, fun h => h p rfl⟩
    cases hq
    exact h

/-- An edge that finds the eye ARMED and is not captured (R51). -/
theorem edgeArmed_passes (h : (s.lane l).canCapture = false) :
    (s.shaded l).edgeArmed l
      = s.modLane l fun x =>
        { x with
          eyeCovered := true, eye := .passing x.belt
          counters := { x.counters with untracked := min (x.counters.untracked + 1) 4294967295 } } := by
  unfold State.edgeArmed
  rw [show ((s.shaded l).lane l).canCapture = (s.lane l).canCapture by rw [State.shaded, State.modLane_lane]; rfl, h,
    if_neg Bool.false_ne_true, shaded_modLane]
  rfl

/-- An edge that finds the eye ARMED and is captured (R41, R51). -/
theorem edgeArmed_captures (h : (s.lane l).canCapture = true) :
    (s.shaded l).edgeArmed l
      = (s.modLane l fun x => LaneS.capture { x with eyeCovered := true }).updateRate l := by
  unfold State.edgeArmed
  rw [show ((s.shaded l).lane l).canCapture = (s.lane l).canCapture by rw [State.shaded, State.modLane_lane]; rfl, h,
    if_pos rfl, shaded_modLane]

/-- An edge in GAP_HOLD after a captured piece (R52). -/
theorem edgeInGap_captured {p : Piece} (hp : s.newest? l = some p) :
    (s.shaded l).edgeInGap l true
      = if p.decisionTaken then (s.shaded l).modLane l (LaneS.pass true) else (s.shaded l).reopen l p := by
  unfold State.edgeInGap
  rw [if_pos rfl, show (s.shaded l).newest? l = some p by
    rw [← hp]; unfold State.newest? State.shaded; rw [State.modLane_lane]]

/-- A reopened record is SHINGLED and counted once, and its scan is abandoned (R52). -/
theorem reopen_eq (p : Piece) :
    (s.shaded l).reopen l p
      = (s.modLane l fun x =>
          { x with
            eyeCovered := true, eye := .covered x.belt
            list :=
              x.list.map fun q =>
                if q.tag = p.tag then { q with length := none, shingled := true, sampleWaitDue := false } else q
            counters :=
              if p.shingled then x.counters else { x.counters with shingled := min (x.counters.shingled + 1) 4294967295 }
            window :=
              if p.shingled then x.window else x.window.map fun w => { w with shingle := min (w.shingle + 1) 65535 } }).abandonScan
        l p.tag := by
  unfold State.reopen State.countShingle State.count State.countWindow
  rw [shaded_modLane]
  cases p.shingled with
  | false =>
    simp only [Bool.false_eq_true, if_false, State.modLane_modLane]
    rfl
  | true => rfl

end Leading

/-- Settles O21: the edge by the state of the eye, and the capture by the lane's room. -/
theorem leadingEdgeCapturesReopensOrPasses : Obligations.LeadingEdgeCapturesReopensOrPasses := by
  refine ⟨fun s l => ⟨leadingEdge_covered, fun hc he => ?idle, fun hc he hno => ?passes, fun hc he hr hl ha room => ?captures⟩,
    fun s l h captured hc he => ⟨?uncaptured, fun p hcap hp => ⟨fun hd => ?decided, fun hd => ?reopens⟩⟩⟩
  case idle =>
    rw [leadingEdge_next hc, he]
    rfl
  case passes =>
    rw [leadingEdge_next hc, he]
    refine congrArg _ (edgeArmed_passes (Bool.eq_false_iff.2 fun hcan => ?_))
    obtain ⟨h1, h2, h3⟩ := (canCapture_iff _).1 hcan
    rcases hno with hd | hl | ha
    · rw [h1] at hd
      cases hd
    · omega
    · exact ha h3
  case captures =>
    intro u
    have next : exec (.leadingEdge l) s = .next (u.updateRate l) := by
      rw [leadingEdge_next hc, he]
      exact congrArg _ (edgeArmed_captures ((canCapture_iff _).2 ⟨hr, hl, ha⟩))
    have h := ((Effect.refl room.filed).thenLane l fun x => LaneS.capture { x with eyeCovered := true }).thenRate l room.places
    rw [bothActs_noActs_left] at h
    exact h.gives next
  case uncaptured =>
    rintro rfl
    rw [leadingEdge_next hc, he]
    refine congrArg _ ?_
    show (s.shaded l).modLane l (LaneS.pass false) = _
    rw [shaded_modLane]
    rfl
  case decided =>
    subst hcap
    rw [leadingEdge_next hc, he]
    refine congrArg _ ?_
    dsimp only
    rw [edgeInGap_captured hp, if_pos hd, shaded_modLane]
    rfl
  case reopens =>
    subst hcap
    rw [leadingEdge_next hc, he]
    refine congrArg _ ?_
    dsimp only
    rw [edgeInGap_captured hp, if_neg (by rw [hd]; exact Bool.false_ne_true), reopen_eq]

/-! ### Scans (R55, R69, R74, R75) -/

section Scan

variable {s : State} {l : Lane} {tag : Tag} {p : Piece}

theorem overlengthPoint_next (hp : s.piece? l tag = some p) :
    exec (.overlengthPoint l tag) s
      = .next (if (s.lane l).overlengthDue (s.geometry l) p then
          (s.modPiece l tag fun p => { p with overlength := true, overlengthTaken := true }).abandonScan l tag
        else s) := by
  show execOverlengthPoint l tag s = _
  unfold execOverlengthPoint
  rw [hp]

theorem sampleWaitExpiry_next (hp : s.piece? l tag = some p) (hd : (s.lane l).sampleWaitReached (s.geometry l) p = true) :
    exec (.sampleWaitExpiry l tag) s
      = .next (if p.scan = .collecting then (s.modPiece l tag fun q => { q with sampleWaitDue := false }).askSlot l tag
        else s.modPiece l tag fun q => { q with sampleWaitDue := false }) := by
  show execSampleWaitExpiry l tag s = _
  unfold execSampleWaitExpiry
  rw [hp]
  dsimp only
  rw [if_pos hd]

/-- Two changes of the record of one tag, the first of which keeps the tag. -/
theorem modPiece_modPiece (f g : Piece → Piece) (hf : ∀ q, (f q).tag = q.tag) :
    (s.modPiece l tag f).modPiece l tag g = s.modPiece l tag fun q => g (f q) := by
  unfold State.modPiece modTagged
  rw [State.modLane_modLane]
  congr 1
  funext x
  rw [List.map_map]
  congr 2
  funext q
  simp only [Function.comp_apply]
  by_cases ht : q.tag = tag
  · simp only [if_pos ht, hf]
  · simp only [if_neg ht]

theorem leaveWaitList_eq (u : State) :
    u.leaveWaitList l tag = { u with scan := { u.scan with waitList := u.scan.waitList.filter fun e => e ≠ (l, tag) } } := by
  have h : (fun e : Lane × Tag => !(e.1 == l && e.2 == tag)) = fun e => decide (e ≠ (l, tag)) := by
    funext e
    obtain ⟨m, t⟩ := e
    by_cases hm : m = l <;> by_cases ht : t = tag <;> simp [hm, ht]
  unfold State.leaveWaitList
  rw [h]

theorem dropJob_eq (u : State) :
    u.dropJob l tag
      = { u with
          scorer :=
            { u.scorer with
              queues := u.scorer.queues.set l ((u.scorer.queues.get l).filter fun j => j.tag ≠ tag) } }.passSlotsOn
        ((u.scorer.queues.get l).length - ((u.scorer.queues.get l).filter fun j : Job => j.tag ≠ tag).length) := by
  have e : (fun j : Job => !(j.tag == tag)) = fun j : Job => decide (j.tag ≠ tag) := by
    funext j
    by_cases hj : j.tag = tag <;> simp [hj]
  unfold State.dropJob
  rw [e]

end Scan

/-- What a jam withdraws (R75). -/
theorem withdrawLane_eq (s : State) (l : Lane) :
    s.withdrawLane l
      = { s with
          scan := { s.scan with waitList := s.scan.waitList.filter fun e => e.1 ≠ l }
          scorer := { s.scorer with queues := s.scorer.queues.set l [] }
          lanes := s.lanes.set l { s.lane l with list := (s.lane l).list.map jamScan } }.passSlotsOn
        (s.scorer.queues.get l).length := by
  have e : (fun e : Lane × Tag => !(e.1 == l)) = fun e : Lane × Tag => decide (e.1 ≠ l) := by
    funext e
    by_cases he : e.1 = l <;> simp [he]
  unfold State.withdrawLane
  rw [e]
  rfl

/-- Settles O24: the two track events that are due, the scan states one by one, and the withdrawal. -/
theorem scansAskAndAreWithdrawn : Obligations.ScansAskAndAreWithdrawn := by
  refine ⟨fun s l tag p hp ha => ⟨fun st he hn ht hr => ?overlength, fun n hn hd hr => ?wait⟩, fun s l tag p hp => ?scan,
    fun s l => ?jam⟩
  case overlength =>
    rw [overlengthPoint_next hp]
    refine congrArg _ (if_pos ?_)
    have hn : (s.lane l).list.getLast? = some p := hn
    unfold LaneS.overlengthDue LaneS.coveredOver
    rw [ha, he, hn, ht]
    simpa [advance] using hr
  case wait =>
    have due : (s.lane l).sampleWaitReached (s.geometry l) p = true := by
      unfold LaneS.sampleWaitReached
      rw [hn, ha, hd]
      exact hr
    rw [sampleWaitExpiry_next hp due]
    exact ⟨fun hc => congrArg _ (if_pos hc), fun hc => congrArg _ (if_neg hc)⟩
  case scan =>
    intro failed unlisted jobs unqueued
    have habandon : (s.piece? l tag).map Piece.scan = some p.scan := congrArg (Option.map Piece.scan) hp
    unfold State.abandonScan State.settleScan
    rw [habandon]
    cases hs : p.scan with
    | collecting => exact ⟨rfl, rfl⟩
    | slotWait => exact ⟨leaveWaitList_eq _, leaveWaitList_eq _⟩
    | queued => exact ⟨dropJob_eq _, dropJob_eq _⟩
    | scoring => exact ⟨rfl, rfl⟩
    | scored => exact ⟨modPiece_modPiece _ _ fun _ => rfl, rfl⟩
    | failed r => exact ⟨rfl, rfl⟩
  case jam =>
    intro u
    rw [withdrawLane_eq]
    refine congrArg (State.passSlotsOn · _) ?_
    show State.mk .. = State.mk ..
    congr 2
    refine congrArg (fun ps => { s.lane l with list := ps }) (List.map_congr_left fun q _ => ?_)
    unfold jamScan
    cases q.scan <;> rfl

end Sys2Proof.Machine

/-! O22 and O33: trailing edges, and retirements with what follows them. -/

namespace Sys2Proof.Machine

/-! ### What follows a retirement (R26, R40, R48) -/

theorem appendSent_length (s : State) (x : PieceReport) : (s.appendSent x).length ≤ 1 := by
  rw [State.appendSent_eq]
  split
  · exact batchSent_length _
  · exact Nat.zero_le 1

theorem appended_reserved (s : State) (x : PieceReport) : (s.appended x).reports.reserved = s.reports.reserved := by
  rw [State.appended_eq]
  split
  · split
    · exact batchTaken_reserved _
    · rfl
  · rfl

theorem gainCategory_reports (s : State) (q : Piece) (d : Disposition) : (s.gainCategory q d).reports = s.reports := by
  unfold State.gainCategory
  split
  · split <;> rfl
  · rfl

theorem handedOff_reserved (s : State) (l : Lane) (q : Piece) (d : Disposition) :
    (s.handedOff l q d).reports.reserved = s.reports.reserved := by
  unfold State.handedOff
  rw [appended_reserved, gainCategory_reports]
  rfl

/-- The feed rate worked out afresh after a retirement, and then the stop of a drained lane. -/
theorem Effect.thenFollow {s t u : State} {r : List OutFrame} (h : Effect s t u r noActs) (l : Lane) (hs : s.Slots 2)
    (hr : r.length ≤ 1) (hu : u.reports.reserved = s.reports.reserved) (hp : s.Places l 1) :
    Effect s ((t.updateRate l).drain l) ((u.modLane l LaneS.rated).settled l)
      (r ++ (u.modLane l LaneS.rated).settledNotice l) (actsFor l (u.feedActs l)) := by
  have h1 := h.thenRate l (h.placesLeft hp (Nat.le_refl 1))
  rw [bothActs_noActs_left] at h1
  exact h1.thenDrain l (h1.slotsLeft hs hu (by omega))

/-! ### The ordinary retirement (R60) -/

theorem retirement_next {s : State} {l : Lane} {tag : Tag} {p : Piece} (hp : s.piece? l tag = some p)
    (hd : (s.lane l).retirementDue (s.geometry l) p = true) :
    exec (.retirement l tag) s = .next (((s.retire l .ordinary p).updateRate l).drain l) := by
  show execRetirement l tag s = _
  unfold execRetirement
  rw [hp]
  exact congrArg _ (if_pos hd)

/-- Settles O33: the hand-offs of an ordinary retirement, and what follows them. -/
theorem retirementHandsRecordOff : Obligations.RetirementHandsRecordOff := by
  intro s l p n d hp ha hn hd hdt hpt hr room u v
  have due : (s.lane l).retirementDue (s.geometry l) p = true := by
    unfold LaneS.retirementDue
    rw [hn, ha, hdt, hpt]
    exact hr
  have h := ((Effect.refl room.filed).thenRetire l p d hd (Nat.le_of_succ_le room.slots)).thenFollow l room.slots
    (appendSent_length _ _) (handedOff_reserved ..) room.places
  exact h.gives (retirement_next hp due)

/-! ### The retirement of a glitch (R53) -/

/-- A record retired as a glitch. -/
def Piece.glitched (p : Piece) : Piece := { p with disposition := some .glitch }

theorem gainCategory_glitch (s : State) (q : Piece) : s.gainCategory q .glitch = s := by
  unfold State.gainCategory
  split
  · exact if_neg (by decide)
  · rfl

/-- What the retirement of a glitch without a pocket hands over. -/
theorem retire_glitch_eq (s : State) (l : Lane) {p : Piece} (hp : p.pocket = none) :
    s.retire l .glitch p
      = (s.modLane l (LaneS.afterRetirement p.glitched .glitch)).appendReport (p.glitched.reported l .glitch) := by
  have key : (((s.modLane l (LaneS.drop p.tag)).countRetired l .glitch p.glitched).pocketRetired l .glitch p.glitched).windowRetired
      l .glitch p.glitched = s.modLane l (LaneS.afterRetirement p.glitched .glitch) := by
    have hpk : p.glitched.pocket = none := hp
    have hcount (u : State) : u.countRetired l .glitch p.glitched = u.count l (LaneCounters.disposed .glitch) := rfl
    have hpocket (u : State) : u.pocketRetired l .glitch p.glitched = u := by
      unfold State.pocketRetired
      rw [hpk]
    have hwindow (u : State) : u.windowRetired l .glitch p.glitched = u := rfl
    rw [hcount, hpocket, hwindow, State.count, State.modLane_modLane]
    congr 1
    funext x
    rw [LaneS.drop_eq]
    unfold LaneS.afterRetirement
    rw [hpk]
    have hw : x.window = x.window.map fun w =>
        if Disposition.glitch ∈ rejects then { w with reject := min (w.reject + 1) 65535 } else w := by
      cases x.window with
      | none => rfl
      | some w => exact congrArg some (if_neg (by decide)).symm
    rw [← hw]
    rfl
  have hreport : p.glitched.report l = p.glitched.reported l .glitch := Piece.reported_eq _ l _ rfl
  show ((((s.modLane l (LaneS.drop p.tag)).countRetired l .glitch p.glitched).pocketRetired l .glitch p.glitched).windowRetired
    l .glitch p.glitched).appendReport (p.glitched.report l) = _
  rw [key, hreport]

/-- A glitch retired after an operation. -/
theorem Effect.thenGlitch {s t u : State} {r : List OutFrame} {a : Lane → List OutFrame} (h : Effect s t u r a) (l : Lane)
    {p : Piece} (hp : p.pocket = none) (hs : t.Slots 1) :
    Effect s (t.retire l .glitch p) (u.handedOff l p.glitched .glitch)
      (r ++ (u.modLane l (LaneS.afterRetirement p.glitched .glitch)).appendSent (p.glitched.reported l .glitch)) a := by
  rw [retire_glitch_eq t l hp, State.handedOff, gainCategory_glitch]
  exact (h.thenLane l (LaneS.afterRetirement p.glitched .glitch)).thenAppend _ hs

/-! ### A record that has left COLLECTING -/

/-- A record as another, which it can have become without a return to COLLECTING. -/
structure Piece.Past (p q : Piece) : Prop where
  tag : q.tag = p.tag
  scan : q.scan = .collecting → p.scan = .collecting

/-- No record of a list has returned to COLLECTING. -/
def State.Past (s t : State) : Prop := ∀ l, List.Forall₂ Piece.Past (s.lane l).list (t.lane l).list

theorem Piece.Past.refl (p : Piece) : p.Past p := ⟨rfl, id⟩

theorem State.Past.refl (s : State) : s.Past s := fun _ => List.forall₂_same.2 fun p _ => .refl p

theorem past_trans {ps qs rs : List Piece} (h : List.Forall₂ Piece.Past ps qs) (h' : List.Forall₂ Piece.Past qs rs) :
    List.Forall₂ Piece.Past ps rs := by
  induction h generalizing rs with
  | nil => exact h'
  | cons h1 _ ih =>
    cases h' with
    | cons h2 h3 => exact .cons ⟨h2.tag.trans h1.tag, fun e => h1.scan (h2.scan e)⟩ (ih h3)

theorem State.Past.trans {s t u : State} (h : s.Past t) (h' : t.Past u) : s.Past u := fun l => past_trans (h l) (h' l)

/-- A change beside the lanes before. -/
theorem State.Past.after {s u t : State} (h : u.Past t) (e : u.lanes = s.lanes := by rfl) : s.Past t := fun l => by
  have := h l
  unfold State.lane at *
  rwa [e] at this

theorem modPiece_past (s : State) (l : Lane) (tag : Tag) {f : Piece → Piece} (hf : ∀ q : Piece, q.Past (f q)) :
    s.Past (s.modPiece l tag f) := by
  intro m
  by_cases hm : m = l
  · subst hm
    unfold State.modPiece
    rw [State.modLane_lane]
    show List.Forall₂ Piece.Past _ (modTagged tag f _)
    unfold modTagged
    rw [List.forall₂_map_right_iff]
    refine List.forall₂_same.2 fun q _ => ?_
    split
    · exact hf q
    · exact .refl q
  · unfold State.modPiece
    rw [State.modLane_lane_ne _ _ hm]
    exact State.Past.refl s m

theorem grantSlot_past (s : State) (l : Lane) (tag : Tag) : s.Past (s.grantSlot l tag) := by
  unfold State.grantSlot
  split
  · exact .refl s
  · split
    · exact .refl s
    · exact .after (modPiece_past _ l tag fun q => ⟨rfl, fun h => nomatch h⟩)

theorem passSlotOn_past (s : State) : s.Past s.passSlotOn := by
  unfold State.passSlotOn
  split
  · exact .refl s
  · exact .after (grantSlot_past _ _ _)

theorem passSlotsOn_past (n : Nat) (s : State) : s.Past (s.passSlotsOn n) := by
  induction n generalizing s with
  | zero => exact .refl s
  | succ n ih => exact (passSlotOn_past s).trans (ih _)

theorem dropJob_past (s : State) (l : Lane) (tag : Tag) : s.Past (s.dropJob l tag) := .after (passSlotsOn_past _ _)

theorem piece?_past {s t : State} (h : s.Past t) {l : Lane} {tag : Tag} {q : Piece} (hq : t.piece? l tag = some q) :
    ∃ p, s.piece? l tag = some p ∧ p.Past q := by
  unfold State.piece? at hq ⊢
  have hl := h l
  generalize (s.lane l).list = ps at hl
  generalize (t.lane l).list = qs at hl hq
  induction hl with
  | nil => cases hq
  | @cons p q' ps qs h1 _ ih =>
    rw [List.find?_cons] at hq ⊢
    rw [h1.tag] at hq
    split at hq
    · cases hq
      exact ⟨p, rfl, h1⟩
    · exact ih hq

/-- A record whose scan is abandoned is not COLLECTING (R55). -/
theorem abandonScan_scan {s : State} {l : Lane} {tag : Tag} {q : Piece} (h : (s.abandonScan l tag).piece? l tag = some q) :
    q.scan ≠ .collecting := by
  have failed {u : State} (hu : (s.failScan l tag .withdrawn).Past u) {q : Piece} (hq : u.piece? l tag = some q)
      {p : Piece} (hp : s.piece? l tag = some p) : q.scan ≠ .collecting := fun hc => by
    obtain ⟨p', hp', hpast⟩ := piece?_past hu hq
    have e := piece?_modPiece hp (fun p => { p with scan := .failed .withdrawn }) fun _ => rfl
    have : p' = { p with scan := .failed .withdrawn } := Option.some.inj (hp'.symm.trans e)
    have := hpast.scan hc
    simp_all
  unfold State.abandonScan at h
  cases hp : s.piece? l tag with
  | none =>
    rw [hp] at h
    exact absurd (h.symm.trans hp) nofun
  | some p =>
    rw [hp] at h
    cases hs : p.scan with
    | collecting =>
      simp only [Option.map_some, hs] at h
      exact failed (.refl _) h hp
    | slotWait =>
      simp only [Option.map_some, hs] at h
      exact failed (u := (s.failScan l tag .withdrawn).leaveWaitList l tag) (State.Past.refl (s.failScan l tag .withdrawn)) h hp
    | queued =>
      simp only [Option.map_some, hs] at h
      exact failed (dropJob_past _ l tag) h hp
    | scoring =>
      simp only [Option.map_some, hs] at h
      exact failed (.refl _) h hp
    | scored =>
      simp only [Option.map_some, hs] at h
      exact failed (modPiece_past _ l tag (f := fun q => { q with finding := none }) fun q => ⟨rfl, id⟩) h hp
    | failed r =>
      simp only [Option.map_some, hs] at h
      rw [Option.some.inj (h.symm.trans hp), hs]
      nofun

end Sys2Proof.Machine

/-! O22: trailing edges. -/

namespace Sys2Proof.Machine

/-- The part with the input of a lane's eye uncovered. -/
def State.unshaded (s : State) (l : Lane) : State := s.modLane l fun x => { x with eyeCovered := false }

theorem unshaded_modLane (s : State) (l : Lane) (f : LaneS → LaneS) :
    (s.unshaded l).modLane l f = s.modLane l fun x => f { x with eyeCovered := false } := State.modLane_modLane s l _ f

section Trailing

variable {s : State} {l : Lane}

theorem trailingEdge_uncovered (h : (s.lane l).eyeCovered = false) : exec (.trailingEdge l) s = .next s :=
  if_neg (by rw [h]; exact Bool.false_ne_true)

theorem trailingEdge_next (h : (s.lane l).eyeCovered = true) :
    exec (.trailingEdge l) s
      = .next
        (match (s.lane l).eye with
        | .covered _ => (s.unshaded l).edgeCovered l
        | .passing st => (s.unshaded l).edgePassing l st
        | .idle | .armed | .gapHold _ _ => s.unshaded l) := if_pos h

theorem unshaded_newest? : (s.unshaded l).newest? l = s.newest? l := by
  unfold State.newest? State.unshaded
  rw [State.modLane_lane]

theorem unshaded_belt : ((s.unshaded l).lane l).belt = (s.lane l).belt := by
  unfold State.unshaded
  rw [State.modLane_lane]

/-- A short span of a record that nothing keeps is a glitch (R53). -/
theorem edgeCovered_glitch {p : Piece} (hp : s.newest? l = some p)
    (hd : signedDistance (s.lane l).belt p.lead < (s.geometry l).minLen) (hs : p.shingled = false)
    (ht : p.decisionTaken = false) :
    (s.unshaded l).edgeCovered l
      = (s.modLane l fun x => { x with eyeCovered := false, eye := .armed }).retireOne l .glitch p := by
  unfold State.edgeCovered
  rw [unshaded_newest?, hp]
  dsimp only
  rw [unshaded_belt, show (s.unshaded l).geometry l = s.geometry l from rfl, hs, ht, unshaded_modLane]
  exact if_pos (by simpa using hd)

/-- Any other span stores the record's length (R53). -/
theorem edgeCovered_stores {p : Piece} (hp : s.newest? l = some p)
    (h : ((s.geometry l).minLen : Int) ≤ signedDistance (s.lane l).belt p.lead ∨ p.shingled = true ∨ p.decisionTaken = true) :
    (s.unshaded l).edgeCovered l
      = (s.unshaded l).storeLength l p (storedLength (s.geometry l) (signedDistance (s.lane l).belt p.lead)) := by
  unfold State.edgeCovered
  rw [unshaded_newest?, hp]
  dsimp only
  rw [unshaded_belt, show (s.unshaded l).geometry l = s.geometry l from rfl]
  refine if_neg fun hh => ?_
  simp only [Bool.and_eq_true, decide_eq_true_eq, Bool.not_eq_true'] at hh
  obtain ⟨⟨h1, h2⟩, h3⟩ := hh
  rcases h with h | h | h
  · omega
  · rw [h2] at h
    cases h
  · rw [h3] at h
    cases h

/-- The part after the newest record has taken its length and the gap hold has begun (R53). -/
def State.lengthStored (s : State) (l : Lane) (p : Piece) (n : Nat) : State :=
  s.modLane l fun x =>
    { x with
      eyeCovered := false, eye := .gapHold (x.belt + BitVec.ofNat 24 (s.geometry l).minGap) true
      list := modTagged p.tag (Piece.measured (s.geometry l) n) x.list }

/-- A member of a list without a second record of its tag is found by its tag. -/
theorem piece?_of_distinct {p : Piece} (hx : (s.lane l).TagsDistinct) (hp : p ∈ (s.lane l).list) :
    s.piece? l p.tag = some p := by
  unfold LaneS.TagsDistinct at hx
  unfold State.piece?
  generalize (s.lane l).list = ps at hx hp
  induction ps with
  | nil => cases hp
  | cons q qs ih =>
    rw [List.map_cons, List.nodup_cons] at hx
    obtain ⟨hq, hqs⟩ := hx
    rcases List.mem_cons.1 hp with rfl | hp
    · rw [List.find?_cons, beq_self_eq_true]
    · have hne : (q.tag == p.tag) = false := by
        refine beq_eq_false_iff_ne.2 fun e => hq ?_
        rw [e]
        exact List.mem_map_of_mem hp
      rw [List.find?_cons, hne]
      exact ih hqs hp

/-- What storing a length does, by whether the record becomes OVERLENGTH. -/
theorem storeLength_long {p : Piece} {n : Nat} (h : p.overlength = false ∧ (s.geometry l).maxLen < n) :
    (s.unshaded l).storeLength l p n = (s.lengthStored l p n).abandonScan l p.tag := by
  have e : (s.unshaded l).modLane l (fun x =>
      { x with
        eye := .gapHold (advance x.belt ((s.unshaded l).geometry l).minGap) true
        list := modTagged p.tag (Piece.measured ((s.unshaded l).geometry l) n) x.list }) = s.lengthStored l p n :=
    unshaded_modLane s l _
  unfold State.storeLength
  simp only [e]
  rw [show (s.unshaded l).geometry l = s.geometry l from rfl, if_pos (by rw [h.1]; simpa using h.2)]
  split
  · rename_i q hq
    have hc := abandonScan_scan hq
    have hr : sampleReady (((s.lengthStored l p n).abandonScan l p.tag).lane l) q = false := by
      unfold sampleReady
      split
      · rename_i h1 _
        exact absurd h1 hc
      · rfl
    rw [hr]
    rfl
  · rfl

theorem storeLength_short {p : Piece} {n : Nat} (h : ¬(p.overlength = false ∧ (s.geometry l).maxLen < n))
    (hp : s.piece? l p.tag = some p) :
    (s.unshaded l).storeLength l p n
      = if p.scan = .collecting ∧ samplesComplete (s.lane l).highMarks (trailing p n) = true then
          (s.lengthStored l p n).askSlot l p.tag
        else s.lengthStored l p n := by
  have e : (s.unshaded l).modLane l (fun x =>
      { x with
        eye := .gapHold (advance x.belt ((s.unshaded l).geometry l).minGap) true
        list := modTagged p.tag (Piece.measured ((s.unshaded l).geometry l) n) x.list }) = s.lengthStored l p n :=
    unshaded_modLane s l _
  have hq : (s.lengthStored l p n).piece? l p.tag = some (p.measured (s.geometry l) n) := by
    have h1 := piece?_modPiece hp (Piece.measured (s.geometry l) n) fun _ => rfl
    unfold State.piece? State.modPiece at h1
    unfold State.piece? State.lengthStored
    rw [State.modLane_lane] at h1 ⊢
    exact h1
  have hm : ((s.lengthStored l p n).lane l).highMarks = (s.lane l).highMarks := by
    unfold State.lengthStored
    rw [State.modLane_lane]
  have hr : sampleReady ((s.lengthStored l p n).lane l) (p.measured (s.geometry l) n) = true ↔
      p.scan = .collecting ∧ samplesComplete (s.lane l).highMarks (trailing p n) = true := by
    unfold sampleReady
    rw [hm]
    show (match p.scan, some n with
      | .collecting, some n => samplesComplete (s.lane l).highMarks (trailing (p.measured (s.geometry l) n) n)
      | _, _ => false) = true ↔ _
    cases hs : p.scan <;> simp [trailing, Piece.measured]
  unfold State.storeLength
  simp only [e]
  rw [show (s.unshaded l).geometry l = s.geometry l from rfl, if_neg (by simpa using h), hq]
  exact if_congr hr rfl rfl

end Trailing

theorem samplesComplete_iff (marks : PerBand (Option Pos)) (trail : Pos) :
    samplesComplete marks trail = true ↔ ∀ b, ∃ h, marks.get b = some h ∧ reached h (trail - 2) = true := by
  have hb (m : Option Pos) : bandComplete m trail = true ↔ ∃ h, m = some h ∧ reached h (trail - 2) = true := by
    unfold bandComplete
    cases m <;> simp
  unfold samplesComplete
  simp only [Bool.and_eq_true, hb]
  constructor
  · rintro ⟨⟨⟨h1, h2⟩, h3⟩, h4⟩ b
    cases b with
    | aTop => exact h1
    | aBottom => exact h2
    | bTop => exact h3
    | bBottom => exact h4
  · intro h
    exact ⟨⟨⟨h .aTop, h .aBottom⟩, h .bTop⟩, h .bBottom⟩

/-- Settles O22: the edge by the state of the eye, then a glitch, or a length stored. -/
theorem trailingEdgeStoresLengthOrRetiresGlitch : Obligations.TrailingEdgeStoresLengthOrRetiresGlitch := by
  intro s l x g
  refine ⟨trailingEdge_uncovered, fun hc he => ?idle, fun st hc he => ?passing,
    fun st p hc he hp => ⟨fun hd hs ht hk room => ?glitch, fun hx hd => ?stores⟩⟩
  case idle =>
    rw [trailingEdge_next hc, he]
    rfl
  case passing =>
    rw [trailingEdge_next hc, he]
    refine congrArg _ ?_
    dsimp only
    unfold State.edgePassing
    exact unshaded_modLane s l _
  case glitch =>
    intro u q v
    have next : exec (.trailingEdge l) s = .next (((u.retire l .glitch p).updateRate l).drain l) := by
      rw [trailingEdge_next hc, he]
      exact congrArg _ (edgeCovered_glitch hp hd hs ht)
    have h := (((Effect.refl room.filed).thenLane l fun x => { x with eyeCovered := false, eye := .armed }).thenGlitch l hk
      (Nat.le_of_succ_le room.slots)).thenFollow l room.slots (appendSent_length _ _) (handedOff_reserved ..) room.places
    exact h.gives next
  case stores =>
    intro len long complete u
    have hlen : storedLength g (signedDistance x.belt p.lead) = len := rfl
    have next : exec (.trailingEdge l) s = .next ((s.unshaded l).storeLength l p len) := by
      rw [trailingEdge_next hc, he]
      exact congrArg _ (edgeCovered_stores hp hd)
    have hu : s.lengthStored l p len = u := rfl
    have hcomplete : p.scan = .collecting ∧ samplesComplete (s.lane l).highMarks (trailing p len) = true ↔ complete :=
      and_congr_right fun _ => samplesComplete_iff _ _
    have hshort (h : ¬long) := storeLength_short h (piece?_of_distinct hx (newest?_mem hp))
    rw [next]
    refine ⟨fun h => congrArg _ (storeLength_long h), fun h hcm => congrArg _ ?_, fun h hcm => congrArg _ ?_⟩
    · rw [hshort h, if_pos (hcomplete.2 hcm), hu]
    · rw [hshort h, if_neg (mt hcomplete.1 hcm), hu]

end Sys2Proof.Machine

/-! O45, O46 and O48: the commands that stage and commit a write. -/

namespace Sys2Proof.Machine

/-! ### Writes refused (R163) -/

theorem setFlag_eq (s : State) (x : StickyFlag) : s.setFlag x = s.flagged x := rfl

/-- A table command refused with a flag, the store having taken a phase. -/
theorem refuses {i : Instr} {s : State} {c : Cmd} {code : Byte} {x : StickyFlag} {rc : ResponseCode} {p : Phase}
    (he : Executing s code c) (h : exec i s = .next ((s.setPhase p).refuseWrite c x rc)) :
    Completes i s c (State.flagged { s with store := { s.store with phase := p } } x) rc [] :=
  .of_next he h

theorem refuses_in_place {i : Instr} {s : State} {c : Cmd} {code : Byte} {x : StickyFlag} {rc : ResponseCode}
    (he : Executing s code c) (h : exec i s = .next (s.refuseWrite c x rc)) : Completes i s c (s.flagged x) rc [] :=
  .of_next he h

/-! ### TABLE_OPEN (R164, R170) -/

theorem openArgs_valid (t : Table) {n : Nat} {b : Byte} {ls : LaneSet} (h1 : 1 ≤ n) (h32 : n ≤ 32)
    (hl : laneSetOf b = some ls) : openArgs [byte t.toNat, byte n, b] = .valid (t, n, ls) := by
  have en : within 1 32 (byte n).toNat = some n := within_eq_some.2 (by rw [byte_toNat (by omega)]; omega)
  simp [openArgs, inRange, en, hl]

theorem locked_iff (k : Store) (t : Table) :
    k.locked t = false ↔
      (t = .ink → k.lockInk = false) ∧ (t = .geometry → k.lockGeometry = false) ∧ (t = .die → k.lockDie = false) := by
  cases t <;> simp [Store.locked]

theorem stopped_iff (s : State) (l : Lane) : s.stopped l = true ↔ (s.lane l).state = .stopped := beq_iff_eq

theorem openInterlock_iff (s : State) (t : Table) (ls : LaneSet) :
    s.openInterlock t ls = true ↔
      (t = .ink → (s.lane .a).state = .stopped ∧ (s.lane .b).state = .stopped)
        ∧ (t = .geometry →
          (ls = .onlyA ∨ ls = .both → (s.lane .a).state = .stopped) ∧ (ls = .onlyB ∨ ls = .both → (s.lane .b).state = .stopped)) := by
  cases t with
  | ink => simp [State.openInterlock, stopped_iff]
  | geometry => cases ls <;> simp [State.openInterlock, LaneSet.has, stopped_iff]
  | signature | stacker | monitor | die => simp [State.openInterlock]

theorem anyFlag_iff (s : State) : s.anyFlag = true ↔ ¬s.store.flags = 0 := bne_iff_ne

section Open

variable {s : State} {c : Cmd} {t : Table} {n : Nat} {ls : LaneSet}

theorem tableOpen_next (he : Executing s 0x38 c) (ha : openArgs c.args = .valid (t, n, ls)) :
    exec .tableOpen s
      = .next
        (match s.store.phase with
        | .ready | .suspended _ => s.tryOpen c t n ls
        | .programming _ _ => s.complete c .tableBusy []
        | .staging _ | .nestedStaging _ _ | .nestedProgramming _ _ => s.discardOpen.refuseWrite c .sequence .sequence) :=
  completion_next he ha

/-- The tests of an open, in their order. -/
theorem tryOpen_tests (he : Executing s 0x38 c) (hn : exec .tableOpen s = .next (s.tryOpen c t n ls)) :
    (¬s.store.flags = 0 → Completes .tableOpen s c s .errorsPending [])
      ∧ (s.store.flags = 0 → s.store.phase.barred t = true → Completes .tableOpen s c s .tableBusy [])
      ∧ (s.store.flags = 0 → s.store.phase.barred t = false → ¬s.store.locked t = false →
        Completes .tableOpen s c (s.flagged .lock) .locked [])
      ∧ (s.store.flags = 0 → s.store.phase.barred t = false → s.store.locked t = false → ¬s.openInterlock t ls = true →
        Completes .tableOpen s c (s.flagged .interlock) .interlock [])
      ∧ (s.store.flags = 0 → s.store.phase.barred t = false → s.store.locked t = false → s.openInterlock t ls = true →
        Completes .tableOpen s c
          (s.setPhase (s.store.phase.opened { table := t, laneSet := ls, count := n, received := [] })) .done []) := by
  unfold State.tryOpen at hn
  have clean (h : s.store.flags = 0) : ¬s.anyFlag = true := fun hf => (anyFlag_iff s).1 hf h
  refine ⟨fun h => ?_, fun h hb => ?_, fun h hb hk => ?_, fun h hb hk hi => ?_, fun h hb hk hi => ?_⟩
  · rw [if_pos ((anyFlag_iff s).2 h)] at hn
    exact .of_next he hn
  · rw [if_neg (clean h), if_pos hb] at hn
    exact .of_next he hn
  · rw [if_neg (clean h), hb, if_neg Bool.false_ne_true, if_pos (Bool.not_eq_false _ ▸ hk)] at hn
    exact refuses_in_place he hn
  · rw [if_neg (clean h), hb, hk, if_neg Bool.false_ne_true, if_neg Bool.false_ne_true,
      if_pos (by rw [Bool.eq_false_iff.2 hi]; rfl)] at hn
    exact refuses_in_place he hn
  · rw [if_neg (clean h), hb, hk, hi, if_neg Bool.false_ne_true, if_neg Bool.false_ne_true,
      if_neg (by exact Bool.false_ne_true)] at hn
    exact .of_next he hn

end Open

/-- Settles O45: the phases of the store, and the tests of an open. -/
theorem tableOpenOpensOrRefuses : Obligations.TableOpenOpensOrRefuses := by
  intro s c t n k ls he h1 h32 hk hls ha clean unlocked stopped interlock tests w
  have next := tableOpen_next he ((congrArg openArgs ha).trans (openArgs_valid t h1 h32 hls))
  cases hp : s.store.phase with
  | ready =>
    rw [hp] at next
    obtain ⟨t1, -, t3, t4, t5⟩ := tryOpen_tests he next
    rw [hp, locked_iff, openInterlock_iff] at *
    exact ⟨t1, fun _ h => absurd trivial h, fun h _ => t3 h rfl, fun h _ => t4 h rfl, fun h _ => t5 h rfl⟩
  | suspended p =>
    rw [hp] at next
    obtain ⟨t1, t2, t3, t4, t5⟩ := tryOpen_tests he next
    have hb : s.store.phase.barred t = true ↔ ¬(t ≠ p.table ∧ t ≠ .signature) := by
      rw [hp]
      show (t == p.table || t == .signature) = true ↔ _
      rw [Bool.or_eq_true, beq_iff_eq, beq_iff_eq, not_and_or, not_not, not_not]
    have hb' : s.store.phase.barred t = false ↔ t ≠ p.table ∧ t ≠ .signature := by
      rw [Bool.eq_false_iff, Ne, hb, not_not]
    rw [hb] at t2
    rw [hb', locked_iff] at t3
    rw [hb', locked_iff, openInterlock_iff] at t4 t5
    rw [hp] at t5
    exact ⟨t1, t2, t3, t4, t5⟩
  | programming p mark =>
    rw [hp] at next
    exact .of_next he next
  | staging v | nestedStaging p v =>
    rw [hp] at next
    unfold State.discardOpen at next
    rw [hp] at next
    exact refuses he next
  | nestedProgramming p q =>
    rw [hp] at next
    unfold State.discardOpen at next
    have e : s.setPhase s.store.phase.discarded = s := by
      rw [hp]
      show { s with store := { s.store with phase := .nestedProgramming p q } } = s
      rw [← hp]
    rw [e] at next
    exact refuses_in_place he next

end Sys2Proof.Machine

/-! O46 and O48: TABLE_FILL and TABLE_COMMIT. -/

namespace Sys2Proof.Machine

/-! ### TABLE_FILL (R165, R175) -/

section Fill

variable {s : State} {c : Cmd} {es : List (Table × List Byte)}

theorem fill_wrongLength (he : Executing s 0x39 c) (h : fillArgs c.args = .wrongLength) :
    Completes .tableFill s c s .badCommand [] :=
  .of_next he (congrArg Host.Outcome.next (State.completion_wrongLength _ he h))

theorem fill_outOfRange (he : Executing s 0x39 c) (h : fillArgs c.args = .outOfRange) :
    Completes .tableFill s c s .badArgument [] :=
  .of_next he (congrArg Host.Outcome.next (State.completion_outOfRange _ he h))

theorem tableFill_next (he : Executing s 0x39 c) (ha : fillArgs c.args = .valid es) :
    exec .tableFill s
      = .next
        (match s.store.phase.open? with
        | some w => s.fill c w es
        | none => s.refuseWrite c .sequence .sequence) := completion_next he ha

/-- A TABLE_FILL of an open write: entries of another table, too many, or taken (R165). -/
theorem fill_cases {w : Staged} (he : Executing s 0x39 c) (hn : exec .tableFill s = .next (s.fill c w es)) :
    ((∃ e ∈ es, e.1 ≠ w.table) → Completes .tableFill s c s .badArgument [])
      ∧ ((∀ e ∈ es, e.1 = w.table) → w.count < w.received.length + es.length →
        Completes .tableFill s c (State.flagged (s.setPhase s.store.phase.discarded) .sequence) .sequence [])
      ∧ ((∀ e ∈ es, e.1 = w.table) → w.received.length + es.length ≤ w.count →
        Completes .tableFill s c (s.setPhase (s.store.phase.withOpen (w.take es))) .done
          [byte (w.received.length + es.length)]) := by
  have other : (es.any fun e => e.1 != w.table) = true ↔ ∃ e ∈ es, e.1 ≠ w.table := by simp
  have same (h : ∀ e ∈ es, e.1 = w.table) : ¬(es.any fun e => e.1 != w.table) = true := fun hh => by
    obtain ⟨e, hm, hne⟩ := other.1 hh
    exact hne (h e hm)
  unfold State.fill at hn
  refine ⟨fun h => ?_, fun h hc => ?_, fun h hc => ?_⟩
  · rw [if_pos (other.2 h)] at hn
    exact .of_next he hn
  · rw [if_neg (same h), if_pos hc] at hn
    exact refuses he hn
  · have hl : (w.take es).received.length = w.received.length + es.length := by simp [Staged.take]
    rw [if_neg (same h), if_neg (Nat.not_lt.2 hc), hl] at hn
    exact .of_next he hn

end Fill

/-- Settles O46: whole entries by the phase of the store, and the lengths that are refused. -/
theorem tableFillAppendsEntries : Obligations.TableFillAppendsEntries := by
  intro s c es he hlt hes carried good filled
  refine ⟨fun ⟨ha, h1, h8⟩ => ?good, fun ha => ?empty, fun k rest ha hk => ?count,
    fun n tail h1 h8 hn ha => ⟨fun hl ht => ?left, fun hl ht => ?missing, fun t bs hl ht hb => ?cut,
      fun z bs hl ht hz => ⟨fun hts => ?unknown, fun hts => ?misfit⟩⟩⟩
  case good =>
    have next := tableFill_next he ((congrArg fillArgs ha).trans (fillArgs_whole hes h1 h8))
    cases hp : s.store.phase with
    | staging w | nestedStaging p w =>
      rw [hp] at next
      obtain ⟨f1, f2, f3⟩ := fill_cases he next
      rw [hp] at f2 f3
      exact ⟨f1, f2, f3⟩
    | ready | programming | suspended | nestedProgramming =>
      rw [hp] at next
      exact refuses_in_place he next
  case empty => exact fill_wrongLength he (congrArg fillArgs ha)
  case count => exact fill_wrongLength he ((congrArg fillArgs ha).trans (fillArgs_outside hk rest))
  case left =>
    subst hl
    refine fill_wrongLength he ((congrArg fillArgs ha).trans ?_)
    rw [fillArgs_inside h1 h8, splitEntries_whole es tail hes]
    exact if_pos ht
  case missing =>
    obtain ⟨k, rfl⟩ := Nat.exists_eq_add_of_lt hl
    refine fill_wrongLength he ((congrArg fillArgs ha).trans ?_)
    rw [fillArgs_inside h1 h8, ht, List.append_nil, show es.length + k + 1 = k + 1 + es.length by omega,
      splitEntries_short es k hes]
  case cut =>
    obtain ⟨k, rfl⟩ := Nat.exists_eq_add_of_lt hl
    refine fill_wrongLength he ((congrArg fillArgs ha).trans ?_)
    rw [fillArgs_inside h1 h8, ht, show es.length + k + 1 = k + 1 + es.length by omega,
      splitEntries_cut es k t bs hes hb]
  case unknown =>
    obtain ⟨k, rfl⟩ := Nat.exists_eq_add_of_lt hl
    subst ht
    rw [show es.length + k + 1 - es.length = k + 1 by omega] at hts
    refine fill_outOfRange he ((congrArg fillArgs ha).trans ?_)
    rw [fillArgs_inside h1 h8, show es.length + k + 1 = k + 1 + es.length by omega,
      splitEntries_unknown es k z bs hes hz, if_pos ((entriesFit_iff (k + 1) (bs.length + 1)).2 hts)]
  case misfit =>
    obtain ⟨k, rfl⟩ := Nat.exists_eq_add_of_lt hl
    subst ht
    rw [show es.length + k + 1 - es.length = k + 1 by omega] at hts
    refine fill_wrongLength he ((congrArg fillArgs ha).trans ?_)
    have hfit : ¬entriesFit (k + 1) (bs.length + 1) = true := fun hf => by
      obtain ⟨ts, hl, hs⟩ := (entriesFit_iff (k + 1) (bs.length + 1)).1 hf
      exact hts ts hl hs
    rw [fillArgs_inside h1 h8, show es.length + k + 1 = k + 1 + es.length by omega,
      splitEntries_unknown es k z bs hes hz, if_neg hfit]

/-! ### TABLE_COMMIT (R167) -/

section Commit

variable {s : State} {c : Cmd} {w : Staged}

theorem tableCommit_next (he : Executing s 0x3A c) (ha : c.args = []) :
    exec .tableCommit s
      = .next
        (match s.store.phase.open? with
        | none => s.refuseWrite c .sequence .sequence
        | some w =>
          match s.checkCommit w with
          | .fails x rc => s.discardOpen.refuseWrite c x rc
          | .passes es => s.beginProgramming c w es) :=
  completion_next (act := fun s c _ =>
    match s.store.phase.open? with
    | none => s.refuseWrite c .sequence .sequence
    | some w =>
      match s.checkCommit w with
      | .fails x rc => s.discardOpen.refuseWrite c x rc
      | .passes es => s.beginProgramming c w es) he (congrArg noArgs ha)

theorem checkCommit_count (h : w.received.length ≠ w.count) : s.checkCommit w = .fails .sequence .sequence := if_pos h

theorem checkCommit_range (hc : w.received.length = w.count) (h : ∃ bs ∈ w.received, s.readEntry w.table bs = none) :
    s.checkCommit w = .fails .range .range := by
  unfold State.checkCommit
  rw [if_neg (not_not_intro hc), (mapM_eq_none _ _).2 h]

/-- The last three checks of a commit, on entries that are all read. -/
theorem checkCommit_read {es : List Entry} (hc : w.received.length = w.count)
    (hr : w.received.map (s.readEntry w.table) = es.map some) :
    s.checkCommit w
      = if ¬(es.map Entry.key).Nodup then .fails .duplicate .duplicate
        else if w.table = .signature ∧ fits s.store.tables.signature es = false then .fails .full .full
        else if s.commitInterlock w es = false then .fails .interlock .interlock
        else .passes es := by
  unfold State.checkCommit
  rw [if_neg (not_not_intro hc), (mapM_eq_some _ _ _).2 hr]

theorem has_iff (ls : LaneSet) (l : Lane) :
    ls.has l = true ↔ ls = .both ∨ ls = (match l with | .a => .onlyA | .b => .onlyB) := by
  cases ls <;> cases l <;> decide

theorem commitInterlock_iff (es : List Entry) :
    s.commitInterlock w es = true ↔
      (w.table = .ink → (s.lane .a).state = .stopped ∧ (s.lane .b).state = .stopped)
        ∧ (w.table = .geometry → ∀ l g, .geometry l g ∈ es →
          (s.lane l).state = .stopped ∧ (w.laneSet = .both ∨ w.laneSet = (match l with | .a => .onlyA | .b => .onlyB))) := by
  unfold State.commitInterlock
  cases w.table with
  | ink => simp [stopped_iff]
  | signature | stacker | monitor | die => simp
  | geometry =>
    have named (l : Lane) : l ∈ es.filterMap Entry.geometryLane? ↔ ∃ g, Entry.geometry l g ∈ es := by
      rw [List.mem_filterMap]
      constructor
      · rintro ⟨e, he, hl⟩
        cases e with
        | geometry m g => exact ⟨g, Option.some.inj hl ▸ he⟩
        | _ => cases hl
      · rintro ⟨g, hg⟩
        exact ⟨_, hg, rfl⟩
    simp only [List.all_eq_true, named, Bool.and_eq_true, has_iff, stopped_iff, reduceCtorEq, false_implies, true_and,
      true_implies]
    exact ⟨fun h l g hg => (h l ⟨g, hg⟩).symm, fun h l ⟨g, hg⟩ => (h l g hg).symm⟩

/-- A PUT whose key the table does not hold. -/
def Entry.putAbsent (t : List SigEntry) : Entry → Bool
  | .put d => !t.any fun x => x.key == d.key
  | _ => false

/-- A DROP whose key the table holds. -/
def Entry.dropPresent (t : List SigEntry) : Entry → Bool
  | .drop k => t.any fun x => x.key == k
  | _ => false

theorem countP_putsAbsent {t : List SigEntry} {es : List Entry} {f : Entry → Bool} (hf : ∀ e, f e = e.putAbsent t) :
    es.countP f = putsAbsent t es := by
  unfold putsAbsent
  rw [List.countP_eq_length_filter]
  refine congrArg (fun f => (es.filter f).length) (funext fun e => (hf e).trans ?_)
  cases e <;> rfl

theorem countP_dropsPresent {t : List SigEntry} {es : List Entry} {f : Entry → Bool} (hf : ∀ e, f e = e.dropPresent t) :
    es.countP f = dropsPresent t es := by
  unfold dropsPresent
  rw [List.countP_eq_length_filter]
  refine congrArg (fun f => (es.filter f).length) (funext fun e => (hf e).trans ?_)
  cases e <;> rfl

end Commit

/-- A commit by its checks in order, the phase it discards to and the one it begins named. -/
theorem commit_checks {s : State} {c : Cmd} {w : Staged} (he : Executing s 0x3A c)
    (hn : exec .tableCommit s
      = .next (match s.checkCommit w with
        | .fails x rc => s.discardOpen.refuseWrite c x rc
        | .passes es => s.beginProgramming c w es)) :
    let fails := fun (x : StickyFlag) (rc : ResponseCode) =>
      Completes .tableCommit s c (State.flagged (s.setPhase s.store.phase.discarded) x) rc []
    (w.received.length ≠ w.count → fails .sequence .sequence)
      ∧ (w.received.length = w.count →
        ((∃ bs ∈ w.received, s.readEntry w.table bs = none) → fails .range .range)
          ∧ ∀ es : List Entry, w.received.map (s.readEntry w.table) = es.map some →
            (¬(es.map Entry.key).Nodup → fails .duplicate .duplicate)
              ∧ ((es.map Entry.key).Nodup → ¬(w.table = .signature → fits s.store.tables.signature es = true) →
                fails .full .full)
              ∧ ((es.map Entry.key).Nodup → (w.table = .signature → fits s.store.tables.signature es = true) →
                ¬s.commitInterlock w es = true → fails .interlock .interlock)
              ∧ ((es.map Entry.key).Nodup → (w.table = .signature → fits s.store.tables.signature es = true) →
                s.commitInterlock w es = true → exec .tableCommit s = .next (s.beginProgramming c w es))) := by
  intro fails
  have failing {x : StickyFlag} {rc : ResponseCode} (h : s.checkCommit w = .fails x rc) : fails x rc := by
    rw [h] at hn
    exact refuses he hn
  refine ⟨fun h => failing (checkCommit_count h), fun hc => ⟨fun h => failing (checkCommit_range hc h), fun es hr => ?_⟩⟩
  have e := checkCommit_read hc hr
  have full : (w.table = .signature ∧ fits s.store.tables.signature es = false)
      ↔ ¬(w.table = .signature → fits s.store.tables.signature es = true) := by
    rw [Classical.not_imp, Bool.not_eq_true]
  refine ⟨fun h => failing (e.trans (if_pos h)), fun hd hf => failing (e.trans ?_), fun hd hf hi => failing (e.trans ?_),
    fun hd hf hi => ?_⟩
  · rw [if_neg (not_not_intro hd), if_pos (full.2 hf)]
  · rw [if_neg (not_not_intro hd), if_neg (mt full.1 (not_not_intro hf)), if_pos (Bool.eq_false_iff.2 hi)]
  · rw [if_neg (not_not_intro hd), if_neg (mt full.1 (not_not_intro hf)), if_neg (by rw [hi]; exact Bool.noConfusion)] at e
    rw [e] at hn
    exact hn

/-- Settles O48: the checks of a commit, for an open write, nested or not. -/
theorem tableCommitChecksInOrder : Obligations.TableCommitChecksInOrder := by
  intro s c he ha commit
  have next := tableCommit_next he ha
  cases hp : s.store.phase with
  | staging w | nestedStaging p w =>
    rw [hp] at next
    obtain ⟨hcount, hrest⟩ := commit_checks he next
    unfold State.beginProgramming at hrest
    rw [hp] at hcount hrest
    refine ⟨hcount, fun hc => ⟨(hrest hc).1, fun es hr => ?_⟩⟩
    intro distinct room interlock
    have hroom : room ↔ (w.table = .signature → fits s.store.tables.signature es = true) := by
      refine forall_congr' fun _ => ?_
      rw [fits_iff, countP_putsAbsent (t := s.store.tables.signature) (fun e => (by cases e <;> rfl)),
        countP_dropsPresent (t := s.store.tables.signature) (fun e => (by cases e <;> rfl))]
    have hinterlock : interlock ↔ s.commitInterlock w es = true :=
      ((commitInterlock_iff es).trans (and_congr Iff.rfl (imp_congr_right fun _ => forall_congr' fun l => by
        cases l <;> exact Iff.rfl))).symm
    rw [hroom, hinterlock]
    exact (hrest hc).2 es hr
  | ready | programming | suspended | nestedProgramming =>
    rw [hp] at next
    exact refuses_in_place he next

end Sys2Proof.Machine

/-! O49 and O50: what an applied entry replaces, and how a write goes on. -/

namespace Sys2Proof.Machine

/-! ### Pocket levels (R132) -/

/-- The part with a half of the Stacker Map holding one more level pair. -/
def State.levelled (s : State) (l : Lane) (k : Fin 10) (w : Levels) : State :=
  s.modTables (Tables.modStacker l (Stacker.withLevels k w))

theorem applyEntry_levels (s : State) (l : Lane) (k : Fin 10) (v : Levels) :
    s.applyEntry (.levels l k v)
      = (s.levelled l k (heldLevels (s.pocket l k) v)).settlePocket l k (heldLevels (s.pocket l k) v) := rfl

/-- A pocket that becomes FULL: the state, the latch and the notice (R132, R134). -/
theorem pocketFull_effect {s : State} (hf : s.FramesFiled) (hs : s.Slots 1) (l : Lane) (k : Fin 10) (v : Levels) :
    Effect s (s.pocketFull l k v)
      (State.announced (State.withLatches (s.modPocket l k fun y => { y with state := .full }) 0x040#11) .pocket)
      (s.announcement .pocket (.pocketFull l k (s.pocket l k).count (s.pocket l k).inbound v.fullLevel)) noActs := by
  have h0 : Effect s (s.modPocket l k fun y => { y with state := .full }) (s.modPocket l k fun y => { y with state := .full }) []
      noActs := .modLane hf l _
  have h := (h0.thenLatches 0x040#11).thenNotice (k := .pocket)
    (m := .pocketFull l k (s.pocket l k).count (s.pocket l k).inbound v.fullLevel) hs
  exact h

/-- The state a pocket is brought to by its levels. -/
def Pocket.brought (v : Levels) (x : Pocket) : PocketState :=
  if x.state = .opened ∧ v.fullLevel ≤ x.count + x.inbound then .full
  else if x.state = .full ∧ x.count + x.inbound < v.fullLevel then .opened else x.state

theorem modPocket_id {s : State} {l : Lane} {k : Fin 10} {f : Pocket → Pocket} (h : f (s.pocket l k) = s.pocket l k) :
    s.modPocket l k f = s := by
  have e : (s.lane l).pockets.set k.val (f ((s.lane l).pockets.get k)) k.isLt = (s.lane l).pockets := by
    rw [show f ((s.lane l).pockets.get k) = (s.lane l).pockets.get k from h]
    exact Vector.set_getElem_self k.isLt
  exact State.modLane_id s l _ (congrArg (fun ps => { s.lane l with pockets := ps }) e)

theorem modPocket_congr {s : State} {l : Lane} {k : Fin 10} {f g : Pocket → Pocket} (h : f (s.pocket l k) = g (s.pocket l k)) :
    s.modPocket l k f = s.modPocket l k g := by
  have e : (s.lane l).pockets.set k.val (f (s.pocket l k)) k.isLt = (s.lane l).pockets.set k.val (g (s.pocket l k)) k.isLt := by
    rw [h]
  exact congrArg (fun ps => { s with lanes := s.lanes.set l { s.lane l with pockets := ps } }) e

theorem settlePocket_fills {s : State} {l : Lane} {k : Fin 10} {v : Levels}
    (h : (s.pocket l k).state = .opened ∧ v.fullLevel ≤ (s.pocket l k).count + (s.pocket l k).inbound) :
    s.settlePocket l k v = s.pocketFull l k v := by
  obtain ⟨h1, h2⟩ := h
  unfold State.settlePocket
  dsimp only
  rw [h1]
  exact if_pos h2

theorem settlePocket_else {s : State} {l : Lane} {k : Fin 10} {v : Levels}
    (h : ¬((s.pocket l k).state = .opened ∧ v.fullLevel ≤ (s.pocket l k).count + (s.pocket l k).inbound)) :
    s.settlePocket l k v = s.modPocket l k fun y => { y with state := (s.pocket l k).brought v } := by
  unfold State.settlePocket Pocket.brought
  dsimp only
  rw [if_neg h]
  have stays (e : (if (s.pocket l k).state = .full ∧ (s.pocket l k).count + (s.pocket l k).inbound < v.fullLevel then
      PocketState.opened else (s.pocket l k).state) = (s.pocket l k).state) :
      s = s.modPocket l k fun y =>
        { y with
          state := if (s.pocket l k).state = .full ∧ (s.pocket l k).count + (s.pocket l k).inbound < v.fullLevel then .opened
            else (s.pocket l k).state } := (modPocket_id (by rw [e])).symm
  cases hst : (s.pocket l k).state with
  | opened =>
    rw [hst] at h stays
    rw [if_neg fun hh => h ⟨rfl, hh⟩]
    exact stays rfl
  | full =>
    rw [hst] at stays
    by_cases hl : (s.pocket l k).count + (s.pocket l k).inbound < v.fullLevel
    · rw [if_pos (And.intro rfl hl)]
      exact if_pos hl
    · exact (if_neg hl).trans (stays (if_neg fun hh => hl hh.2))
  | sweepWait | sweep =>
    rw [hst] at stays
    exact stays rfl

/-- Settles the level pairs of O49: the pair held, and the pocket brought into line. -/
theorem applyEntry_levels_spec {s : State} (hf : s.FramesFiled) (hs : s.Slots 1) (l : Lane) (k : Fin 10) (v : Levels) :
    let w := heldLevels (s.pocket l k) v
    let fills := (s.pocket l k).state = .opened ∧ v.fullLevel ≤ (s.pocket l k).count + (s.pocket l k).inbound
    let p := (s.levelled l k w).modPocket l k fun y => { y with state := (s.pocket l k).brought v }
    Effect s (s.applyEntry (.levels l k v)) (if fills then (p.withLatches 0x040#11).announced .pocket else p)
      (if fills then s.announcement .pocket (.pocketFull l k (s.pocket l k).count (s.pocket l k).inbound v.fullLevel) else [])
      noActs := by
  intro w fills p
  rw [applyEntry_levels]
  have hg : (s.levelled l k w).FramesFiled := ⟨hf.act, hf.reports⟩
  by_cases hfill : fills
  · rw [if_pos hfill, if_pos hfill, settlePocket_fills (s := s.levelled l k w) (v := w) hfill]
    have h := pocketFull_effect hg hs l k w
    have e : (s.levelled l k w).modPocket l k (fun y => { y with state := .full }) = p := by
      refine modPocket_congr ?_
      show _ = { (s.pocket l k) with state := (s.pocket l k).brought v }
      unfold Pocket.brought
      rw [if_pos hfill]
      rfl
    rw [e] at h
    exact ⟨h.quiet, h.reports, h.acts, h.pass, h.filed, h.slots, h.places⟩
  · rw [if_neg hfill, if_neg hfill, settlePocket_else (s := s.levelled l k w) (v := w) hfill]
    exact .inside hf rfl rfl rfl rfl

/-! ### The statement of O49 -/

theorem vector_get_set {α : Type} {n : Nat} (v : Vector α n) (i k : Fin n) (x : α) :
    (v.set i.val x i.isLt).get k = if k = i then x else v.get k := by
  rw [Vector.get_eq_getElem, Vector.getElem_set]
  by_cases h : k = i
  · rw [if_pos h, if_pos (congrArg Fin.val h).symm]
  · rw [if_neg h, if_neg fun e => h (Fin.ext e).symm]
    rfl

/-- Settles O49: each kind of entry, the levels apart. -/
theorem entriesReplaceTheirRecords : Obligations.EntriesReplaceTheirRecords := by
  refine ⟨fun s n p => ⟨rfl, fun k => vector_get_set _ n k p⟩, fun s k => rfl, fun s e k h => ?signature, fun s l g => rfl,
    fun s n m e => ⟨rfl, rfl⟩, fun s k l h d => ⟨rfl, rfl⟩, fun s l r ks => ⟨rfl, fun m => ⟨?levels, fun q => ?routes⟩⟩,
    fun s l k v hf hs => ?pair⟩
  case signature =>
    refine ⟨rfl, rfl, putSignature_order h e, dropSignature_order h k, fun d => mem_putSignature h e d, fun d => ?_⟩
    show d ∈ s.store.tables.signature.filter _ ↔ _
    rw [List.mem_filter]
    simp
  case levels =>
    show ((s.store.tables.stacker.set l _).get m).levels = _
    rw [PerLane.get_set_eq]
    split
    · rename_i hm
      subst hm
      rfl
    · rfl
  case routes =>
    show ((s.store.tables.stacker.set l _).get m).routes.get q = _
    rw [PerLane.get_set_eq]
    by_cases hm : m = l
    · subst hm
      rw [if_pos rfl]
      refine (vector_get_set _ r q ks).trans ?_
      simp [State.stackerMap]
    · rw [if_neg hm, if_neg fun hh => hm hh.1]
      rfl
  case pair =>
    have h := applyEntry_levels_spec hf hs l k v
    exact ⟨h.quiet, h.reports, fun m => (h.acts m).trans (List.append_nil _), h.pass⟩

/-! ### The next entry (R168, R169) -/

theorem applyEntry_filed {s : State} (hf : s.FramesFiled) (e : Entry) :
    (s.applyEntry e).FramesFiled ∧ (∀ l, (s.applyEntry e).actTraffic l = s.actTraffic l)
      ∧ (s.applyEntry e).passTraffic = s.passTraffic ∧ (s.applyEntry e).reports.reserved = s.reports.reserved
      ∧ (s.applyEntry e).link.station = s.link.station := by
  cases e with
  | levels l k v =>
    rw [applyEntry_levels]
    have hg : (s.levelled l k (heldLevels (s.pocket l k) v)).FramesFiled := ⟨hf.act, hf.reports⟩
    generalize heldLevels (s.pocket l k) v = w at hg
    by_cases hfill : ((s.levelled l k w).pocket l k).state = .opened
        ∧ w.fullLevel ≤ ((s.levelled l k w).pocket l k).count + ((s.levelled l k w).pocket l k).inbound
    · rw [settlePocket_fills hfill]
      have h := notice_noted_effect (s := ((s.levelled l k w).modPocket l k fun x => { x with state := .full }).setLatch .pocketFull)
        ⟨hf.act, hf.reports⟩ .pocket
        (.pocketFull l k ((s.levelled l k w).pocket l k).count ((s.levelled l k w).pocket l k).inbound w.fullLevel)
      have hq := State.eq_withTraffic h.quiet
      refine ⟨h.filed, fun m => (h.acts m).trans (List.append_nil _), h.pass, h.reserved.trans ?_, ?_⟩
      · rw [noted_eq]
        unfold Reports.noted
        split <;> [(split <;> rfl); rfl]
      · refine (congrArg (fun u => u.link.station) hq).trans ?_
        rw [noted_eq]
        rfl
    · rw [settlePocket_else hfill]
      exact ⟨⟨hf.act, hf.reports⟩, fun _ => rfl, rfl, rfl, rfl⟩
  | _ => exact ⟨⟨hf.act, hf.reports⟩, fun _ => rfl, rfl, rfl, rfl⟩

/-- The commit that a write's last application answers (R22). -/
theorem respond_after {u : State} (hf : u.FramesFiled) (c : Cmd) :
    (u.respond c .done []).quiet
        = { u with reports := { u.reports with reserved := u.reports.reserved - 1 } }.quiet
      ∧ (u.respond c .done []).reportTraffic = u.reportTraffic ++ [u.response c .done []]
      ∧ (∀ l, (u.respond c .done []).actTraffic l = u.actTraffic l) ∧ (u.respond c .done []).passTraffic = u.passTraffic := by
  obtain ⟨h1, h2, h3, h4, -⟩ := State.queueReport_spec
    (s := { u with reports := { u.reports with reserved := u.reports.reserved - 1 } }) (f := u.response c .done [])
    ⟨hf.act, hf.reports⟩ rfl
  exact ⟨h1, h2, h3, h4⟩

/-- The last entry of a write, which leaves the store in a phase. -/
theorem lastEntry_answers {s : State} (hf : s.FramesFiled) (e : Entry) (c : Cmd) (phase : Phase)
    (h : exec .entryApplication s = .next (((s.applyEntry e).setPhase phase).respond c .done [])) :
    ∃ t, exec .entryApplication s = .next t
      ∧ t.quiet
        = { s.applyEntry e with
            store := { (s.applyEntry e).store with phase := phase }
            reports := { (s.applyEntry e).reports with reserved := s.reports.reserved - 1 } }.quiet
      ∧ t.reportTraffic = (s.applyEntry e).reportTraffic ++ [s.response c .done []]
      ∧ (∀ l, t.actTraffic l = s.actTraffic l) ∧ t.passTraffic = s.passTraffic := by
  obtain ⟨filed, acts, pass, reserved, station⟩ := applyEntry_filed hf e
  obtain ⟨h1, h2, h3, h4⟩ := respond_after (u := (s.applyEntry e).setPhase phase) ⟨filed.act, filed.reports⟩ c
  refine ⟨_, h, h1.trans ?_, h2.trans ?_, fun l => (h3 l).trans (acts l), h4.trans pass⟩
  · rw [← reserved]
    rfl
  · unfold State.response
    rw [← station]
    rfl

/-- Settles O50: the two programming phases by whether an entry is left, and the other phases. -/
theorem entryApplicationAdvancesTheWrite : Obligations.EntryApplicationAdvancesTheWrite := by
  intro s e rest hf last goes next
  have step : exec .entryApplication s = execEntryApplication s := rfl
  cases hp : s.store.phase with
  | programming p mark =>
    intro htodo
    unfold execEntryApplication at step
    simp only [hp, htodo] at step
    refine ⟨fun hr => ?_, fun hr => ?_⟩
    · subst hr
      exact lastEntry_answers hf e p.commit .ready step
    · obtain ⟨e', rest', rfl⟩ := List.exists_cons_of_ne_nil hr
      exact step
  | nestedProgramming p q =>
    intro htodo
    unfold execEntryApplication at step
    simp only [hp, htodo] at step
    refine ⟨fun hr => ?_, fun hr => ?_⟩
    · subst hr
      exact lastEntry_answers hf e q.commit (.suspended p) step
    · obtain ⟨e', rest', rfl⟩ := List.exists_cons_of_ne_nil hr
      exact step
  | ready | staging | suspended | nestedStaging =>
    unfold execEntryApplication at step
    rw [hp] at step
    exact step

end Sys2Proof.Machine

/-! The hand-off of records that are lost (R59, R61), and O39 to O41: the lane commands. -/

namespace Sys2Proof.Machine

/-! ### Records that are lost to a jam or a reset (R138, R146) -/

/-- A pocket that `n` records have left uncounted (R138). -/
def Pocket.abandoned (n : Nat) (k : Pocket) : Pocket :=
  { k with
    inbound := k.inbound - n
    state := if 0 < n ∧ k.state = .sweepWait ∧ k.inbound ≤ n then .sweep else k.state }

theorem Pocket.abandoned_zero (k : Pocket) : k.abandoned 0 = k := by
  unfold Pocket.abandoned
  rw [if_neg fun h => absurd h.1 (Nat.lt_irrefl 0)]
  rfl

theorem Pocket.retire_lost {way : Way} (hw : way ≠ .ordinary) (q : Piece) (k : Pocket) : k.retire way q = k.abandoned 1 := by
  have same : k.retire way q = Pocket.settleSweep { k with inbound := k.inbound - 1 } := by
    cases way <;> [exact absurd rfl hw; rfl; rfl; rfl]
  rw [same]
  unfold Pocket.settleSweep Pocket.abandoned
  by_cases h : k.state = .sweepWait ∧ k.inbound - 1 = 0
  · obtain ⟨sweeping, none⟩ := h
    rw [if_pos ⟨sweeping, none⟩, if_pos ⟨Nat.one_pos, sweeping, by omega⟩]
  · rw [if_neg h, if_neg fun hh => h ⟨hh.2.1, by have := hh.2.2; omega⟩]

theorem Pocket.abandoned_abandoned (m n : Nat) (k : Pocket) : (k.abandoned m).abandoned n = k.abandoned (m + n) := by
  have hstate : ((k.abandoned m).abandoned n).state = (k.abandoned (m + n)).state := by
    unfold Pocket.abandoned
    dsimp only
    by_cases hs : k.state = .sweepWait
    · by_cases h1 : 0 < m ∧ k.inbound ≤ m
      · rw [if_pos (show 0 < m ∧ k.state = .sweepWait ∧ k.inbound ≤ m from ⟨h1.1, hs, h1.2⟩),
          if_neg (by simp), if_pos ⟨by omega, hs, by omega⟩]
      · rw [if_neg (show ¬(0 < m ∧ k.state = .sweepWait ∧ k.inbound ≤ m) from fun h => h1 ⟨h.1, h.2.2⟩)]
        by_cases h2 : 0 < n ∧ k.inbound - m ≤ n
        · rw [if_pos ⟨h2.1, hs, h2.2⟩, if_pos ⟨by omega, hs, by omega⟩]
        · rw [if_neg fun h => h2 ⟨h.1, h.2.2⟩, if_neg]
          intro h
          have := h.2.2
          omega
    · simp [hs]
  have hinbound : ((k.abandoned m).abandoned n).inbound = (k.abandoned (m + n)).inbound := Nat.sub_sub _ _ _
  have ext (x y : Pocket) (h1 : x.state = y.state) (h2 : x.count = y.count) (h3 : x.inbound = y.inbound)
      (h4 : x.valueSum = y.valueSum) (h5 : x.firstTag = y.firstTag) (h6 : x.lastTag = y.lastTag) : x = y := by
    cases x; cases y; simp_all
  exact ext _ _ hstate rfl hinbound rfl rfl rfl

/-- A pocket that every record assigned to it has left. -/
theorem Pocket.abandoned_all {n : Nat} {k : Pocket} (hn : k.inbound = n) (hk : k.state = .sweepWait → 0 < k.inbound) :
    k.abandoned n = k.deserted := by
  have hzero : k.inbound - n = 0 := by omega
  unfold Pocket.abandoned Pocket.deserted
  rw [hzero]
  by_cases hs : k.state = .sweepWait
  · have := hk hs
    rw [if_pos ⟨by omega, hs, Nat.le_of_eq hn⟩, if_pos hs]
  · rw [if_neg fun hh => hs hh.2.1, if_neg hs]

/-- The counters after one record more has been lost. -/
theorem LaneCounters.lost_succ (d : Disposition) (n : Nat) (c : LaneCounters) :
    (c.disposed d).lost d n = c.lost d (n + 1) := by
  unfold LaneCounters.lost LaneCounters.disposed satInc
  dsimp only
  rw [vector_get_set, if_pos rfl, Vector.set_set, if_neg (Nat.succ_ne_zero n)]
  have e : (if n = 0 then min (c.dispositions.get d.index + 1) Config.max32
      else min (min (c.dispositions.get d.index + 1) Config.max32 + n) 4294967295)
        = min (c.dispositions.get d.index + (n + 1)) 4294967295 := by
    unfold Config.max32
    split <;> omega
  rw [e]

/-- Records of a list that carry a pocket. -/
def inboundOf (ps : List Piece) (k : Fin 10) : Nat := (ps.filter fun p => p.pocket == some k).length

/-- A lane whose records `ps` have been lost, its booking lists being empty (R59, R61, R138, R146). -/
def LaneS.bereft (d : Disposition) (ps : List Piece) (x : LaneS) : LaneS :=
  { x with
    list := x.list.filter fun q => ps.all fun p => !(q.tag == p.tag)
    pockets := Vector.ofFn fun k => (x.pockets.get k).abandoned (inboundOf ps k)
    counters := x.counters.lost d ps.length }

theorem Head.without_of_nil {h : Head} (hb : h.booking = []) (tag : Tag) : h.without tag = h := by
  unfold Head.without
  rw [hb]
  obtain ⟨b, r, _, _, _⟩ := h
  subst hb
  rfl

theorem vector_get_ofFn {α : Type} {n : Nat} (f : Fin n → α) (k : Fin n) : (Vector.ofFn f).get k = f k := by
  rw [Vector.get_eq_getElem, Vector.getElem_ofFn]

theorem vector_ext_get {α : Type} {n : Nat} {v w : Vector α n} (h : ∀ k : Fin n, v.get k = w.get k) : v = w :=
  Vector.ext fun i hi => h ⟨i, hi⟩

/-- A lane that loses one record. -/
theorem LaneS.handOff_lost {way : Way} {d : Disposition} (hw : way ≠ .ordinary) (hd : ∀ p, (retired way p).disposition = some d)
    (hr : ∀ p, (retired way p).pocket = p.pocket) (p : Piece) (x : LaneS) (hb : ∀ h, (x.heads.get h).booking = []) :
    x.handOff way p
      = { x with
          list := x.list.filter fun q => !(q.tag == p.tag)
          pockets := Vector.ofFn fun k => (x.pockets.get k).abandoned (inboundOf [p] k)
          counters := x.counters.disposed d } := by
  have hdrop : x.drop p.tag = { x with list := x.list.filter fun q => !(q.tag == p.tag) } := by
    unfold LaneS.drop
    rw [Head.without_of_nil (h := x.heads.l) (hb .l), Head.without_of_nil (h := x.heads.t) (hb .t)]
  have hwindow (y : LaneS) : y.windowRetired way (retired way p) = y := by
    cases way <;> [exact absurd rfl hw; rfl; rfl; rfl]
  unfold LaneS.handOff
  rw [hwindow, hdrop]
  unfold LaneS.countRetired LaneS.pocketRetired
  rw [hd]
  dsimp only
  rw [hr]
  cases hp : p.pocket with
  | none =>
    dsimp only
    congr 1
    refine vector_ext_get fun k => ?_
    rw [vector_get_ofFn]
    simp [inboundOf, hp, Pocket.abandoned_zero]
  | some m =>
    dsimp only
    congr 1
    refine vector_ext_get fun k => ?_
    rw [vector_get_ofFn, vector_get_set, Pocket.retire_lost hw]
    by_cases hk : k = m
    · subst hk
      simp [inboundOf, hp]
    · rw [if_neg hk]
      simp [inboundOf, hp, Pocket.abandoned_zero, Ne.symm hk]

/-- A lane that loses records one after another. -/
theorem LaneS.handOffs_lost {way : Way} {d : Disposition} (hw : way ≠ .ordinary) (hd : ∀ p, (retired way p).disposition = some d)
    (hr : ∀ p, (retired way p).pocket = p.pocket) (ps : List Piece) (x : LaneS) (hb : ∀ h, (x.heads.get h).booking = []) :
    x.handOffs way ps = x.bereft d ps := by
  induction ps generalizing x with
  | nil =>
    unfold LaneS.handOffs LaneS.bereft LaneCounters.lost
    have hv : (Vector.ofFn fun k => (x.pockets.get k).abandoned (inboundOf [] k)) = x.pockets :=
      vector_ext_get fun k => by
      rw [vector_get_ofFn]
      exact Pocket.abandoned_zero _
    have hl : (x.list.filter fun q => ([] : List Piece).all fun p => !(q.tag == p.tag)) = x.list := by simp
    have hc : x.counters.dispositions.set d.index.val (x.counters.dispositions.get d.index) d.index.isLt
        = x.counters.dispositions := Vector.set_getElem_self d.index.isLt
    rw [hv, hl, List.foldl_nil, List.length_nil, if_pos rfl, hc]
  | cons p ps ih =>
    show (x.handOff way p).handOffs way ps = _
    rw [LaneS.handOff_lost hw hd hr p x hb]
    refine (ih _ ?_).trans ?_
    · exact hb
    unfold LaneS.bereft
    dsimp only
    rw [LaneCounters.lost_succ]
    congr 1
    · rw [List.filter_filter]
      refine List.filter_congr fun q _ => ?_
      rw [List.all_cons, Bool.and_comm]
    · refine vector_ext_get fun k => ?_
      rw [vector_get_ofFn, vector_get_ofFn, vector_get_ofFn, Pocket.abandoned_abandoned]
      congr 1
      unfold inboundOf
      rw [← List.length_append, ← List.filter_append]
      rfl

/-- A lane that loses its whole list, each pocket's inbound being right (R59, R61, R144). -/
theorem LaneS.handOffs_all {way : Way} {d : Disposition} (hw : way ≠ .ordinary) (hd : ∀ p, (retired way p).disposition = some d)
    (hr : ∀ p, (retired way p).pocket = p.pocket) {x : LaneS} (hb : ∀ h, (x.heads.get h).booking = []) (hx : x.InboundRight) :
    x.handOffs way x.list
      = { x with
          list := [], pockets := x.pockets.map Pocket.deserted, counters := x.counters.lost d x.list.length } := by
  have hlist := LaneS.handOffs_list way x.list x fun q hq => ⟨q, hq, rfl⟩
  rw [LaneS.handOffs_lost hw hd hr x.list x hb] at hlist ⊢
  have hpockets : (Vector.ofFn fun k => (x.pockets.get k).abandoned (inboundOf x.list k)) = x.pockets.map Pocket.deserted := by
    refine vector_ext_get fun k => ?_
    obtain ⟨inbound, sweeping⟩ := hx k
    rw [vector_get_ofFn, Pocket.abandoned_all (n := inboundOf x.list k) inbound sweeping, Vector.get_eq_getElem, Vector.get_eq_getElem, Vector.getElem_map]
  unfold LaneS.bereft at hlist ⊢
  dsimp only at hlist
  rw [hlist, hpockets]

/-- Records that are lost leave the category records alone (R148). -/
theorem handOff_lost_eq {way : Way} (hw : way ≠ .ordinary) (s : State) (l : Lane) (p : Piece) :
    s.handOff l way p = s.modLane l (LaneS.handOff way p) := by
  have hc (u : State) (q : Piece) : (u.countRetired l way q).categories = u.categories := by
    have hway : (way == Way.ordinary) = false := by cases way <;> [exact absurd rfl hw; rfl; rfl; rfl]
    unfold State.countRetired
    rw [hway]
    cases q.disposition with
    | none => rfl
    | some d => simp
  have h : (s.handOff l way p).categories = s.categories := by
    unfold State.handOff
    dsimp only
    rw [windowRetired_eq_modLane, pocketRetired_eq_modLane]
    exact hc _ _
  rw [handOff_eq_modLane, h]

theorem handOffAll_lost_eq {way : Way} (hw : way ≠ .ordinary) (s : State) (l : Lane) :
    s.handOffAll l way = s.modLane l fun x => x.handOffs way (s.lane l).list := by
  have all (ps : List Piece) (u : State) :
      ps.foldl (fun s p => s.handOff l way p) u = u.modLane l fun x => x.handOffs way ps := by
    induction ps generalizing u with
    | nil => exact (State.modLane_id u l _ rfl).symm
    | cons p ps ih =>
      rw [List.foldl_cons, handOff_lost_eq hw, ih, State.modLane_modLane]
      rfl
  exact all _ s

end Sys2Proof.Machine

/-! O39 to O41: LANE_START, LANE_STOP and JAM_CLEAR. -/

namespace Sys2Proof.Machine

theorem laneArg_valid (l : Lane) : laneArg [byte (laneNat l)] = .valid l := by cases l <;> rfl

/-! ### Operations on the reports leave the link -/

theorem announced_link (u : State) (k : NoticeClass) : (u.announced k).link = u.link := by
  unfold State.announced; split <;> rfl

theorem batchTaken_link (u : State) : u.batchTaken.link = u.link := by
  unfold State.batchTaken; split <;> [rfl; exact announced_link u .piece]

theorem entered_link (u : State) (l : Lane) (st : LaneState) : (u.entered l st).link = u.link := announced_link _ _

theorem settled_link (u : State) (l : Lane) : (u.settled l).link = u.link := by
  unfold State.settled; split <;> [exact entered_link _ l _; rfl]

theorem appended_link (u : State) (x : PieceReport) : (u.appended x).link = u.link := by
  unfold State.appended
  dsimp only
  split
  · split <;> [exact batchTaken_link _; rfl]
  · rfl

theorem appendedAll_link (xs : List PieceReport) (u : State) : (u.appendedAll xs).link = u.link := by
  induction xs generalizing u with
  | nil => rfl
  | cons x xs ih => exact (ih _).trans (appended_link u x)

/-- A response depends on the part's station alone. -/
theorem response_of_link {u v : State} (h : u.link = v.link) (c : Cmd) (rc : ResponseCode) (d : List Byte) :
    u.response c rc d = v.response c rc d := by
  unfold State.response
  rw [h]

/-! ### LANE_START (R46) -/

theorem profileEnabled_iff (s : State) :
    s.profileEnabled = true ↔ ∃ n, (s.store.tables.profiles.get n).enable = true := by
  unfold State.profileEnabled
  rw [List.any_eq_true]
  constructor
  · rintro ⟨p, hp, he⟩
    obtain ⟨i, hi, rfl⟩ := List.getElem_of_mem hp
    exact ⟨⟨i, by simpa using hi⟩, by simpa [Vector.get_eq_getElem] using he⟩
  · rintro ⟨n, he⟩
    refine ⟨_, ?_, he⟩
    rw [Vector.get_eq_getElem, Vector.mem_toList_iff]
    exact Vector.getElem_mem _

theorem readyToStart_iff (s : State) (l : Lane) :
    s.readyToStart l = true ↔ (s.geometry l).loaded = true ∧ (∃ n, (s.store.tables.profiles.get n).enable = true)
      ∧ .ink ∉ s.store.phase.writes ∧ .geometry ∉ s.store.phase.writes := by
  unfold State.readyToStart
  rw [Bool.and_eq_true, Bool.and_eq_true, Bool.and_eq_true, profileEnabled_iff]
  simp [and_assoc]

/-- A lane that enters RUNNING, with its notice, its rate and the DONE. -/
theorem run_effect {s u : State} {l : Lane} (h : Effect s u u [] noActs) (hs : u.Slots 1) (hp : u.Places l 1) (c : Cmd) :
    Effect s ((u.run l).done c) ((u.entered l .running).modLane l LaneS.rated).answered
      (u.laneNotice l .running ++ [u.response c .done []]) (actsFor l ((u.entered l .running).feedActs l)) := by
  have entering := h.thenState l .running hs
  have hplace : (u.laneTo l .running).Places l 1 := ((Effect.refl h.filed).thenState l .running hs).placesLeft hp (by simp [noActs])
  have rated := (entering.thenRate l hplace).thenComplete c .done []
  rw [bothActs_noActs_left, List.nil_append] at rated
  have station : State.response ((u.entered l .running).modLane l LaneS.rated) c .done [] = u.response c .done [] :=
    response_of_link (entered_link u l _) c _ _
  rw [station] at rated
  exact rated

/-- Settles O39: by the lane's state, and in STOPPED and DRAINING by the tests of readiness. -/
theorem laneStartStartsOrResumes : Obligations.LaneStartStartsOrResumes := by
  intro s c l he ha g ready running gives
  have hnext := completion_next (act := fun s c l =>
      match (s.lane l).state with
      | .jammed => s.complete c .wrongState []
      | .running => s.done c
      | .stopped | .draining => if s.readyToStart l then (s.startLane l).done c else s.complete c .notReady []) he
    ((congrArg laneArg ha).trans (laneArg_valid l))
  have starting (h : (s.lane l).state = .stopped ∨ (s.lane l).state = .draining) : exec .laneStart s
      = .next (if s.readyToStart l then (s.startLane l).done c else s.complete c .notReady []) := by
    refine Eq.trans ?_ hnext |>.trans ?_
    · rfl
    · obtain h | h := h <;> simp only [h]
  refine ⟨fun h => .of_next he (hnext.trans ?_), fun h => .of_next he (hnext.trans ?other), fun h hr => .of_next he ?refused,
    fun h hr hs hp => ?resumed, fun h hr hs hp => ?started⟩
  · simp only [h]
  · simp only [h]
    rfl
  case refused =>
    rw [starting h, if_neg fun hh => hr ((readyToStart_iff s l).1 hh)]
  case resumed =>
    have hrun : s.startLane l = s.run l := by unfold State.startLane; simp only [h]
    refine (run_effect (Effect.refl he.filed) hs hp c).gives ?_
    rw [starting (.inr h), if_pos ((readyToStart_iff s l).2 hr), hrun]
  case started =>
    have hrun : s.startLane l = (s.modLane l (LaneS.start (s.geometry l) s.store.tables.monitor)).run l := by
      unfold State.startLane
      simp only [h]
    refine (run_effect (Effect.modLane he.filed l (LaneS.start (s.geometry l) s.store.tables.monitor)) hs hp c).gives ?_
    rw [starting (.inl h), if_pos ((readyToStart_iff s l).2 hr), hrun]

/-! ### LANE_STOP (R47) -/

theorem entered_reserved (u : State) (l : Lane) (st : LaneState) : (u.entered l st).reports.reserved = u.reports.reserved :=
  announced_reserved _ _

/-- Settles O40: a RUNNING lane is drained, and any other is left alone. -/
theorem laneStopDrainsTheLane : Obligations.LaneStopDrainsTheLane := by
  intro s c l he ha
  have hnext := completion_next (act := fun s c l =>
      match (s.lane l).state with
      | .running => (s.stopLane l).done c
      | .stopped | .draining | .jammed => s.done c) he ((congrArg laneArg ha).trans (laneArg_valid l))
  refine ⟨fun h => .of_next he (hnext.trans ?other), fun h hs hp => ?drains⟩
  case other =>
    cases hst : (s.lane l).state with
    | running => exact absurd hst h
    | stopped | draining | jammed => rfl
  case drains =>
    intro u v
    have hfit (n : Nat) (hn : n ≤ 3) : s.Slots n := by unfold State.Slots at *; omega
    have closed := (Effect.refl he.filed).thenBatch (hfit 1 (by omega))
    have stopping := closed.thenState l .draining
      (closed.slotsLeft hs (batchTaken_reserved s) (by have := batchSent_length s; simp only [List.nil_append]; omega))
    have rated := stopping.thenRate l (stopping.placesLeft hp (by simp [noActs]))
    have drained := rated.thenDrain l (rated.slotsLeft hs
      ((entered_reserved _ _ _).trans (batchTaken_reserved s)) (by
        have h1 := batchSent_length s
        have h2 := announcement_length s.batchTaken .lane
          (.lane l (s.batchTaken.lane l).state .draining (s.batchTaken.lane l).list.length)
        simp only [List.nil_append, List.length_append, State.laneNotice]
        omega))
    have answered := drained.thenComplete c .done []
    rw [bothActs_noActs_left, List.nil_append] at answered
    have station : (v.settled l).response c .done [] = s.response c .done [] :=
      response_of_link ((settled_link v l).trans ((entered_link _ l _).trans (batchTaken_link s))) c _ _
    rw [station] at answered
    refine answered.gives (hnext.trans ?_)
    simp only [h]
    rfl

/-! ### JAM_CLEAR (R59) -/

/-- Several records appended to the batch, a free slot for each (R26). -/
theorem Effect.thenAppends {s t u : State} {r : List OutFrame} {a : Lane → List OutFrame} (h : Effect s t u r a)
    (xs : List PieceReport) (hs : t.Slots xs.length) :
    Effect s (t.appendReports xs) (u.appendedAll xs) (r ++ u.appendAllSent xs) a := by
  induction xs generalizing t u r with
  | nil => simpa [State.appendReports, State.appendedAll, State.appendAllSent] using h
  | cons x xs ih =>
    have first := h.thenAppend x (by unfold State.Slots at *; simp only [List.length_cons] at hs; omega)
    have own := (Effect.refl h.filed).thenAppend x (by unfold State.Slots at *; simp only [List.length_cons] at hs; omega)
    have rest := ih first (own.slotsLeft hs (appended_reserved _ _) (by
      have := appendSent_length t x
      simp only [List.nil_append, List.length_cons]
      omega))
    rw [List.append_assoc] at rest
    exact rest

theorem appendedAll_reserved (xs : List PieceReport) (u : State) : (u.appendedAll xs).reports.reserved = u.reports.reserved := by
  induction xs generalizing u with
  | nil => rfl
  | cons x xs ih => exact (ih _).trans (appended_reserved u x)

theorem appendAllSent_length (xs : List PieceReport) (u : State) : (u.appendAllSent xs).length ≤ xs.length := by
  induction xs generalizing u with
  | nil => exact Nat.le_refl 0
  | cons x xs ih =>
    have h1 := appendSent_length u x
    have h2 := ih (u.appended x)
    simp only [State.appendAllSent, List.length_append, List.length_cons]
    omega

/-- Settles O41: the list is handed off, its reports are appended, and the lane stops. -/
theorem jamClearRetiresTheList : Obligations.JamClearRetiresTheList := by
  intro s c l he ha
  have hnext := completion_next (act := fun s c l =>
      match (s.lane l).state with
      | .jammed => (s.clearJam l).done c
      | .stopped | .running | .draining => s.complete c .wrongState []) he ((congrArg laneArg ha).trans (laneArg_valid l))
  refine ⟨fun h => .of_next he (hnext.trans ?other), fun h hin hbook hs hlen => ?clears⟩
  case other =>
    cases hst : (s.lane l).state with
    | jammed => exact absurd hst h
    | stopped | running | draining => rfl
  case clears =>
    intro x lost u v
    have hall : s.handOffAll l .jamClear = u := by
      rw [handOffAll_lost_eq (way := .jamClear) nofun]
      unfold State.modLane
      have e := LaneS.handOffs_all (way := .jamClear) (d := .jamLost) nofun (fun _ => rfl) (fun _ => rfl) (x := s.lane l) hbook hin
      exact congrArg (fun y => { s with lanes := s.lanes.set l y }) e
    have hlost : ((s.lane l).list.map fun p => (retired .jamClear p).report l) = lost :=
      List.map_congr_left fun p _ => Piece.reported_eq _ l .jamLost rfl
    have hclear : s.retireAll l .jamClear = u.appendReports lost := by rw [retireAll_jamClear, hall, hlost]
    have hcount : lost.length ≤ 24 := by rw [List.length_map]; exact hlen
    have handed : Effect s u u [] noActs := Effect.modLane he.filed l _
    have hfit : u.Slots 25 := hs
    have appended := handed.thenAppends lost (by unfold State.Slots at *; omega)
    have stopping := appended.thenState l .stopped (appended.slotsLeft hs (appendedAll_reserved lost u) (by
      have := appendAllSent_length lost u
      simp only [List.nil_append]
      omega))
    have answered := stopping.thenComplete c .done []
    rw [List.nil_append] at answered
    have station : (v.entered l .stopped).response c .done [] = s.response c .done [] :=
      response_of_link ((entered_link v l _).trans (appendedAll_link lost u)) c _ _
    rw [station] at answered
    refine answered.gives (hnext.trans ?_)
    simp only [h]
    unfold State.clearJam
    rw [hclear]
    rfl

end Sys2Proof.Machine

/-! O34: what a window end does. -/

namespace Sys2Proof.Machine

/-! ### Windows and monitors (R156, R157) -/

theorem least_lt_iff (c : PerBand Nat) (n : Nat) : c.least < n ↔ ∃ b, c.get b < n := by
  unfold PerBand.least
  constructor
  · intro h
    by_cases h1 : c.aTop < n
    · exact ⟨.aTop, h1⟩
    by_cases h2 : c.aBottom < n
    · exact ⟨.aBottom, h2⟩
    by_cases h3 : c.bTop < n
    · exact ⟨.bTop, h3⟩
    · exact ⟨.bBottom, show c.bBottom < n by omega⟩
  · rintro ⟨b, hb⟩
    cases b <;> simp only [PerBand.get] at hb <;> omega

theorem least_is_one (c : PerBand Nat) : (∃ b, c.least = c.get b) ∧ ∀ b, c.least ≤ c.get b := by
  refine ⟨?_, fun b => Nat.le_of_not_lt fun h => absurd ((least_lt_iff c _).2 ⟨b, h⟩) (Nat.lt_irrefl _)⟩
  obtain ⟨b, hb⟩ := (least_lt_iff c (c.least + 1)).1 (Nat.lt_succ_self _)
  refine ⟨b, Nat.le_antisymm ?_ (Nat.le_of_lt_succ hb)⟩
  exact Nat.le_of_not_lt fun h => absurd ((least_lt_iff c _).2 ⟨b, h⟩) (Nat.lt_irrefl _)

theorem bad_iff (w : Window) :
    (w.bad .reject = true ↔ w.profile.monitors.reject.limit < w.reject)
      ∧ (w.bad .late = true ↔ w.profile.monitors.late.limit < w.late)
      ∧ (w.bad .shingle = true ↔ w.profile.monitors.shingle.limit < w.shingle)
      ∧ (w.bad .reference = true ↔ ∃ b, w.reference.get b < w.profile.monitors.reference.limit) :=
  ⟨decide_eq_true_iff, decide_eq_true_iff, decide_eq_true_iff, decide_eq_true_iff.trans (least_lt_iff _ _)⟩

theorem judge_bad (e : MonitorEntry) (x : Monitor) :
    (x.declared = false ∧ e.declareN ≤ min (x.badRun + 1) 15 → x.judge e true = ⟨true, 0, 0⟩)
      ∧ (x.declared = true ∨ min (x.badRun + 1) 15 < e.declareN → x.judge e true = ⟨x.declared, min (x.badRun + 1) 15, 0⟩) := by
  unfold Monitor.judge
  dsimp only
  rw [if_pos rfl]
  refine ⟨fun ⟨undeclared, reached⟩ => if_pos ?_, fun h => if_neg ?_⟩
  · rw [undeclared, decide_eq_true reached]
    rfl
  · obtain h | h := h
    · simp [h]
    · simp only [Bool.and_eq_true, decide_eq_true_eq]
      exact fun hh => absurd hh.2 (Nat.not_le_of_lt h)

theorem judge_good (e : MonitorEntry) (x : Monitor) :
    (x.declared = true ∧ e.clearM ≤ min (x.goodRun + 1) 15 → x.judge e false = ⟨false, 0, 0⟩)
      ∧ (x.declared = false ∨ min (x.goodRun + 1) 15 < e.clearM → x.judge e false = ⟨x.declared, 0, min (x.goodRun + 1) 15⟩) := by
  unfold Monitor.judge
  dsimp only
  rw [if_neg Bool.false_ne_true]
  refine ⟨fun ⟨declared, reached⟩ => if_pos ?_, fun h => if_neg ?_⟩
  · rw [declared, decide_eq_true reached]
    rfl
  · obtain h | h := h
    · simp [h]
    · simp only [Bool.and_eq_true, decide_eq_true_eq]
      exact fun hh => absurd hh.2 (Nat.not_le_of_lt h)

/-! ### One monitor judged (R158) -/

theorem judged_disabled {s : State} {l : Lane} {w : Window} {m : MonitorId} (h : (w.profile.monitors.get m).enable = false) :
    s.judged l w m = s ∧ s.judgedSent l w m = [] :=
  ⟨if_neg (by rw [h]; nofun), if_neg fun hh => by rw [h] at hh; exact nomatch hh.1⟩

/-- A lane with a monitor that a window has been judged for. -/
def State.withMonitor (s : State) (l : Lane) (w : Window) (m : MonitorId) : State :=
  s.modLane l fun x =>
    { x with monitors := x.monitors.set m (((s.lane l).monitors.get m).judge (w.profile.monitors.get m) (w.bad m)) }

/-- A monitor that a window declares or clears (R157, R158). -/
def State.turns (s : State) (l : Lane) (w : Window) (m : MonitorId) : Prop :=
  (((s.lane l).monitors.get m).judge (w.profile.monitors.get m) (w.bad m)).declared ≠ ((s.lane l).monitors.get m).declared

theorem judged_steady {s : State} {l : Lane} {w : Window} {m : MonitorId} (h : (w.profile.monitors.get m).enable = true)
    (hd : ¬s.turns l w m) : s.judged l w m = s.withMonitor l w m ∧ s.judgedSent l w m = [] :=
  ⟨(if_pos h).trans (if_pos (not_not.1 hd)), if_neg fun hh => hd hh.2⟩

theorem judged_turned {s : State} {l : Lane} {w : Window} {m : MonitorId} (h : (w.profile.monitors.get m).enable = true)
    (hd : s.turns l w m) :
    s.judged l w m = ((s.withMonitor l w m).withLatches (BitVec.ofNat 11 (2 ^ (2 + m.toNat)))).announced .monitor
      ∧ s.judgedSent l w m
        = s.announcement .monitor
          (.monitor l m (((s.lane l).monitors.get m).judge (w.profile.monitors.get m) (w.bad m)).declared w.stop (w.judged m)
            (w.profile.monitors.get m).limit
            (if (((s.lane l).monitors.get m).judge (w.profile.monitors.get m) (w.bad m)).declared
              then (w.profile.monitors.get m).declareN else (w.profile.monitors.get m).clearM)) :=
  ⟨(if_pos h).trans (if_neg hd), if_pos ⟨h, hd⟩⟩

theorem judgedSent_length (s : State) (l : Lane) (w : Window) (m : MonitorId) : (s.judgedSent l w m).length ≤ 1 := by
  unfold State.judgedSent
  dsimp only
  split <;> [exact announcement_length s .monitor _; simp]

/-- Judging a monitor leaves the reservations, the tables and the lane's state. -/
theorem judged_keeps (s : State) (l : Lane) (w : Window) (m : MonitorId) :
    (s.judged l w m).reports.reserved = s.reports.reserved ∧ (s.judged l w m).store = s.store
      ∧ ((s.judged l w m).lane l).state = (s.lane l).state := by
  have set : ((s.withMonitor l w m).lane l).state = (s.lane l).state := by
    unfold State.withMonitor
    rw [State.modLane_lane]
  by_cases he : (w.profile.monitors.get m).enable = true
  · by_cases hd : s.turns l w m
    · rw [(judged_turned he hd).1]
      unfold State.announced
      split <;> exact ⟨rfl, rfl, set⟩
    · rw [(judged_steady he hd).1]
      exact ⟨rfl, rfl, set⟩
  · rw [(judged_disabled (Bool.eq_false_iff.2 he)).1]
    exact ⟨rfl, rfl, rfl⟩

/-- One monitor judged after an operation. -/
theorem Effect.thenJudge {s t u : State} {r : List OutFrame} {a : Lane → List OutFrame} (h : Effect s t u r a) (l : Lane)
    (w : Window) (m : MonitorId) (hs : t.Slots 1) :
    Effect s (t.judgeMonitor l w m) (u.judged l w m) (r ++ u.judgedSent l w m) a := by
  have e := State.eq_withTraffic h.quiet
  have e1 : t.lane l = u.lane l := by rw [e]; rfl
  unfold State.judgeMonitor
  dsimp only
  rw [e1]
  by_cases he : (w.profile.monitors.get m).enable = true
  · rw [if_pos he]
    have set := h.thenLane l fun x =>
      { x with monitors := x.monitors.set m (((u.lane l).monitors.get m).judge (w.profile.monitors.get m) (w.bad m)) }
    by_cases hd : u.turns l w m
    · rw [if_neg hd, (judged_turned he hd).1, (judged_turned he hd).2]
      have hbit : BitVec.ofNat 11 (2 ^ m.latch.bit) = BitVec.ofNat 11 (2 ^ (2 + m.toNat)) := by cases m <;> rfl
      rw [← hbit]
      exact (set.thenLatches (BitVec.ofNat 11 (2 ^ m.latch.bit))).thenNotice hs .monitor _
    · rw [if_pos (not_not.1 hd), (judged_steady he hd).1, (judged_steady he hd).2, List.append_nil]
      exact set
  · rw [if_neg he, (judged_disabled (Bool.eq_false_iff.2 he)).1, (judged_disabled (Bool.eq_false_iff.2 he)).2, List.append_nil]
    exact h

theorem judgeWindow_effect {s : State} (hf : s.FramesFiled) (l : Lane) (w : Window) (hs : s.Slots 4) :
    let s1 := s.judged l w .reject
    let s2 := s1.judged l w .late
    let s3 := s2.judged l w .shingle
    Effect s (s.judgeWindow l w) (s3.judged l w .reference)
      (s.judgedSent l w .reject ++ s1.judgedSent l w .late ++ s2.judgedSent l w .shingle ++ s3.judgedSent l w .reference)
      noActs := by
  intro s1 s2 s3
  have n0 := judgedSent_length s l w .reject
  have n1 := judgedSent_length s1 l w .late
  have n2 := judgedSent_length s2 l w .shingle
  have r1 : s1.reports.reserved = s.reports.reserved := (judged_keeps s l w .reject).1
  have r2 : s2.reports.reserved = s.reports.reserved := (judged_keeps s1 l w .late).1.trans r1
  have r3 : s3.reports.reserved = s.reports.reserved := (judged_keeps s2 l w .shingle).1.trans r2
  have h1 := (Effect.refl hf).thenJudge l w .reject (by unfold State.Slots at *; omega)
  have h2 : Effect s _ s2 (_ ++ s1.judgedSent l w .late) _ := h1.thenJudge l w .late (h1.slotsLeft hs r1 (by simp only [List.nil_append]; omega))
  have h3 : Effect s _ s3 (_ ++ s2.judgedSent l w .shingle) _ := h2.thenJudge l w .shingle (h2.slotsLeft hs r2 (by
    simp only [List.nil_append, List.length_append]
    omega))
  have h4 := h3.thenJudge l w .reference (h3.slotsLeft hs r3 (by
    simp only [List.nil_append, List.length_append]
    omega))
  rw [List.nil_append] at h4
  exact h4

/-! ### The statement of O34 -/

theorem windowEnd_judges {s : State} {l : Lane} {w : Window} (hw : (s.lane l).window = some w) (ha : (s.lane l).active = true)
    (hr : reached (s.lane l).belt w.stop = true) (room : s.Room l 4 1) :
    let s1 := s.judged l w .reject
    let s2 := s1.judged l w .late
    let s3 := s2.judged l w .shingle
    let s4 := s3.judged l w .reference
    Gives (.windowEnd l) s
      ((s4.modLane l LaneS.rated).modLane l fun x => { x with window := some (startWindow s.store.tables.monitor w.stop) })
      (s.judgedSent l w .reject ++ s1.judgedSent l w .late ++ s2.judgedSent l w .shingle ++ s3.judgedSent l w .reference)
      (actsFor l (s4.feedActs l)) := by
  intro s1 s2 s3 s4
  have judged := judgeWindow_effect room.filed l w room.slots
  have rated := judged.thenRate l (judged.placesLeft room.places (by simp [noActs]))
  rw [bothActs_noActs_left] at rated
  have hstep : exec (.windowEnd l) s = .next (((s.judgeWindow l w).updateRate l).nextWindow l w.stop) := by
    show execWindowEnd l s = _
    unfold execWindowEnd
    rw [hw]
    dsimp only
    rw [ha, hr]
    rfl
  have hlane : (((s.judgeWindow l w).updateRate l).lane l).active = true := by
    rw [show ((s.judgeWindow l w).updateRate l).lane l = (s4.modLane l LaneS.rated).lane l from by
      rw [State.eq_withTraffic rated.quiet]; rfl, State.modLane_lane]
    have hst : (s4.lane l).state = (s.lane l).state :=
      (judged_keeps s3 l w .reference).2.2.trans ((judged_keeps s2 l w .shingle).2.2.trans
        ((judged_keeps s1 l w .late).2.2.trans (judged_keeps s l w .reject).2.2))
    rw [LaneS.active_iff] at ha ⊢
    rw [← hst] at ha
    exact ha
  have hstore : ((s.judgeWindow l w).updateRate l).store = s.store := by
    rw [State.eq_withTraffic rated.quiet]
    exact (judged_keeps s3 l w .reference).2.1.trans ((judged_keeps s2 l w .shingle).2.1.trans
      ((judged_keeps s1 l w .late).2.1.trans (judged_keeps s l w .reject).2.1))
  refine (rated.thenLane l fun x => { x with window := some (startWindow s.store.tables.monitor w.stop) }).gives ?_
  rw [hstep]
  unfold State.nextWindow
  rw [if_pos hlane, hstore]

/-- Settles O34: the step by its window, and the judging by its definitions. -/
theorem windowEndJudgesMonitors : Obligations.WindowEndJudgesMonitors := by
  refine ⟨fun s l w hw => ⟨fun h => ?idle, fun ha hr room => windowEnd_judges hw ha hr room⟩,
    ⟨bad_iff, fun e x => ⟨(judge_bad e x).1, (judge_bad e x).2, judge_good e x⟩⟩, fun s l w m => ?monitor⟩
  case idle =>
    have hdue : ((s.lane l).active && reached (s.lane l).belt w.stop) = false := by
      obtain h | h := h <;> simp [h]
    show execWindowEnd l s = _
    unfold execWindowEnd
    rw [hw]
    dsimp only
    rw [hdue]
    rfl
  case monitor =>
    intro e old new u latch
    refine ⟨judged_disabled, fun he hd => judged_steady he (not_not.2 hd), fun he hd => ?_⟩
    obtain ⟨state, sent⟩ := judged_turned he hd
    have hlatch : BitVec.ofNat 11 (2 ^ (2 + m.toNat)) = latch := by cases m <;> rfl
    rw [hlatch] at state
    refine ⟨state, w.judged m, ?_, sent⟩
    cases m with
    | reject | late | shingle => rfl
    | reference => exact least_is_one w.reference

end Sys2Proof.Machine

/-! O32 fails: two records of one tag may stand in a list. -/

namespace Sys2Proof.Machine

/-- A decided record in stream X, its pocket point due. -/
def rejectPiece : Piece := { captured 0 0 with decisionTaken := true, stream := some .x }

/-- A decided record of the same tag, in stream L with a METER finding. -/
def twinPiece : Piece :=
  { captured 0 0 with
    decisionTaken := true, stream := some .l
    finding :=
      some
        { result := .hit { corner := .c1, profile := 0, kind := .meter, score := 0, run := 0, stampStart := 0, category := none }
          value := 0, precancel := false, multi := false, staleRef := false } }

/-- Lane A runs with both records; its routes list no pocket. -/
def twinState : State :=
  { State.reset with
    lanes := ⟨{ LaneS.initial with state := .running, list := [rejectPiece, twinPiece], nextTag := 1 }, LaneS.initial⟩ }

/-- Refutes O32: its record need not be the only one of its tag. The point is taken for both records of the
tag, and each takes the route of its own stream: the second one's is METER, where the statement says REJECT
of both. -/
theorem not_pocketPointChoosesOrJams : ¬Obligations.PocketPointChoosesOrJams := by
  intro h
  obtain ⟨-, jams⟩ := h twinState .a rejectPiece rfl rfl rfl rfl (fun h k hk => by cases h <;> cases hk) (by decide) .x .reject rfl
    (.inl ⟨rfl, rfl⟩)
  obtain ⟨t, step, quiet, -⟩ := jams (fun k hk => nomatch hk) ⟨fun l f hf => (by cases l <;> cases hf), fun f hf => nomatch hf⟩
    (by unfold State.Slots; decide)
  have routes : (t.lane .a).list.map Piece.route = [some .reject, some .reject] := by
    have lanes : t.lanes = _ := (State.quiet_fields quiet).2.2.2.2.2.1
    unfold State.lane
    rw [lanes]
    rfl
  have taken : exec (.pocketPoint .a 0) twinState
      = .next ((twinState.modPiece .a 0 Piece.atPocketPoint).jamCause .a .noPocket) := rfl
  rw [show rejectPiece.tag = 0 from rfl, taken] at step
  cases step
  have own : ((((twinState.modPiece .a 0 Piece.atPocketPoint).jamCause .a .noPocket).lane .a).list.map Piece.route)
      = [some .reject, some .meter] := rfl
  rw [own] at routes
  cases routes

end Sys2Proof.Machine

/-! O29: a decision that rejects. -/

namespace Sys2Proof.Machine

theorem modLane_congr {s : State} {l : Lane} {f g : LaneS → LaneS} (h : f (s.lane l) = g (s.lane l)) : s.modLane l f = s.modLane l g :=
  congrArg (fun x => { s with lanes := s.lanes.set l x }) h

/-! ### Operations that change the scans of records (R72, R74) -/

/-- A record with another scan state, which is SCORED only if it was. -/
structure Piece.Rescanned (p q : Piece) : Prop where
  same : q = { p with scan := q.scan }
  scored : q.scan = .scored → p.scan = .scored

/-- A part whose records have other scan states, its wait list and jobs changed besides. -/
structure State.Rescanned (s t : State) : Prop where
  outside : t = { s with lanes := t.lanes, scan := t.scan, scorer := t.scorer }
  lane : ∀ l, t.lane l = { s.lane l with list := (t.lane l).list }
  list : ∀ l, List.Forall₂ Piece.Rescanned (s.lane l).list (t.lane l).list

theorem Piece.Rescanned.refl (p : Piece) : p.Rescanned p := ⟨rfl, id⟩

theorem Piece.Rescanned.trans {p q r : Piece} (h : p.Rescanned q) (h' : q.Rescanned r) : p.Rescanned r where
  same := by rw [h'.same, h.same]
  scored e := h.scored (h'.scored e)

theorem State.Rescanned.refl (s : State) : s.Rescanned s := ⟨rfl, fun _ => rfl, fun _ => List.forall₂_same.2 fun p _ => .refl p⟩

theorem State.Rescanned.trans {s t u : State} (h : s.Rescanned t) (h' : t.Rescanned u) : s.Rescanned u where
  outside := by rw [h'.outside, h.outside]
  lane l := by rw [h'.lane l, h.lane l]
  list l := by
    have h1 := h.list l
    have h2 := h'.list l
    generalize (s.lane l).list = ps at h1
    generalize (t.lane l).list = qs at h1 h2
    generalize (u.lane l).list = rs at h2
    induction h1 generalizing rs with
    | nil => exact h2
    | cons a _ ih =>
      cases h2 with
      | cons b h3 => exact .cons (a.trans b) (ih _ h3)

/-- A scan or scorer changed on the way. -/
theorem State.Rescanned.after {s u t : State} (h : u.Rescanned t)
    (e : u = { s with scan := u.scan, scorer := u.scorer } := by rfl) : s.Rescanned t where
  outside := by rw [h.outside, e]
  lane l := by
    have := h.lane l
    rw [this, e]
    rfl
  list l := by
    have := h.list l
    rw [e] at this
    exact this

theorem modPiece_rescanned (s : State) (l : Lane) (tag : Tag) {x : ScanState} (hx : x ≠ .scored) :
    s.Rescanned (s.modPiece l tag fun p => { p with scan := x }) where
  outside := rfl
  lane m := by
    unfold State.modPiece
    rw [State.modLane_lane_eq]
    split
    · rename_i hm
      subst hm
      rfl
    · rfl
  list m := by
    unfold State.modPiece
    rw [State.modLane_lane_eq]
    split
    · rename_i hm
      subst hm
      show List.Forall₂ _ _ (modTagged tag _ _)
      unfold modTagged
      rw [List.forall₂_map_right_iff]
      refine List.forall₂_same.2 fun p _ => ?_
      split
      · exact ⟨rfl, fun h => absurd h hx⟩
      · exact .refl p
    · exact List.forall₂_same.2 fun p _ => .refl p

theorem grantSlot_rescanned (s : State) (l : Lane) (tag : Tag) : s.Rescanned (s.grantSlot l tag) := by
  unfold State.grantSlot
  split
  · exact .refl s
  · split
    · exact .refl s
    · exact .after (modPiece_rescanned _ l tag nofun)

theorem passSlotOn_rescanned (s : State) : s.Rescanned s.passSlotOn := by
  unfold State.passSlotOn
  split
  · exact .refl s
  · exact .after (grantSlot_rescanned _ _ _)

theorem passSlotsOn_rescanned (n : Nat) (s : State) : s.Rescanned (s.passSlotsOn n) := by
  induction n generalizing s with
  | zero => exact .refl s
  | succ n ih => exact (passSlotOn_rescanned s).trans (ih _)

theorem dropJob_rescanned (s : State) (l : Lane) (tag : Tag) : s.Rescanned (s.dropJob l tag) := .after (passSlotsOn_rescanned _ _)

/-- A scan settled at its decision point (R74). -/
theorem settleScan_rescanned (s : State) (l : Lane) (tag : Tag) : s.Rescanned (s.settleScan l tag) := by
  have failed : s.Rescanned (s.failScan l tag .late) := modPiece_rescanned s l tag nofun
  unfold State.settleScan
  split
  · exact failed
  · exact failed.trans (.after (.refl _))
  · exact failed.trans (dropJob_rescanned _ l tag)
  · exact .refl s

/-- A SCORED record's scan is settled. -/
theorem settleScan_scored {s : State} {l : Lane} {tag : Tag} {p : Piece} (hp : s.piece? l tag = some p) (hs : p.scan = .scored) :
    s.settleScan l tag = s := by
  unfold State.settleScan
  rw [hp, Option.map_some, hs]

theorem piece?_rescanned {s t : State} (h : s.Rescanned t) {l : Lane} {tag : Tag} {p : Piece} (hp : s.piece? l tag = some p) :
    ∃ q, t.piece? l tag = some q ∧ p.Rescanned q := by
  unfold State.piece? at hp ⊢
  have hl := h.list l
  generalize (s.lane l).list = ps at hl hp
  generalize (t.lane l).list = qs at hl
  induction hl with
  | nil => cases hp
  | @cons p' q ps qs h1 _ ih =>
    have htag : q.tag = p'.tag := by rw [h1.same]
    rw [List.find?_cons] at hp ⊢
    rw [htag]
    split at hp
    · cases hp
      exact ⟨q, rfl, h1⟩
    · exact ih hp

/-! ### The checks of a decision (R104) -/

section Checks

variable {s : State} {l : Lane} {p : Piece} {f : Finding} {h : Hit}

theorem decision_double (hd : p.shingled = true ∨ p.overlength = true) : s.decision l p = .reject .rejectDouble :=
  if_pos (by rwa [Bool.or_eq_true])

theorem decision_late (h1 : p.shingled = false) (h2 : p.overlength = false) (h3 : p.scan ≠ .scored) :
    s.decision l p = .reject .rejectLate := by
  unfold State.decision
  rw [h1, h2, if_neg (by simp)]
  split
  · rename_i h4 _
    exact absurd h4 h3
  · rfl

/-- What the checks give a SCORED record by the result of its finding (R104). -/
def State.byResult (s : State) (l : Lane) (p : Piece) (f : Finding) : FindingResult → Decision
  | .noData => .reject .rejectScan
  | .noMark => .reject .rejectNomark
  | .ambiguous => .reject .rejectAmbiguous
  | .hit h => s.decideHit l p f h

theorem decision_scored (hp : p.Scored f) : s.decision l p = s.byResult l p f f.result := by
  unfold State.decision
  rw [hp.shingled, hp.overlength, if_neg (by simp), hp.scan, hp.finding]
  obtain ⟨r, _, _, _, _⟩ := f
  cases r <;> rfl

theorem gateServes_iff (c : Corner) :
    s.gateServes l p c ↔ ¬(wantedSetting c ≠ (s.lane l).gate.setting ∧ gateClear (s.geometry l) (s.lane l).gate p = false) := by
  unfold State.gateServes
  rw [not_and_or, not_not, Bool.not_eq_false]
  rfl

/-- What check 7 gives a HIT record (R106). -/
theorem routeCheck_eq :
    s.routeCheck l p f h
      = .face h (s.facing l p f h).1 (s.facing l p f h).2.1 (s.facing l p f h).2.2
          (decide ((s.facing l p f h).2.1 = .booked)) := by
  unfold State.routeCheck State.facing
  cases h.kind with
  | meter | permit => cases f.precancel <;> rfl
  | stamp =>
    cases f.precancel with
    | true => rfl
    | false =>
      cases hb : s.bookingCheck l (wantedHead h.corner) p.lead h.stampStart <;> simp

theorem available_iff (st : Stream) (c : RouteClass) :
    s.available l st c = true ↔ ∃ k ∈ (s.stackerMap l).list st c, s.selectable l k := by
  unfold State.available State.selectable openSelectable overfillSelectable
  rw [List.any_eq_true]
  simp

theorem decideHit_gate (hg : ¬s.gateServes l p h.corner) : s.decideHit l p f h = .reject .rejectGate := by
  rw [gateServes_iff, not_not] at hg
  exact if_pos hg

theorem decideHit_pocket (hg : s.gateServes l p h.corner)
    (hk : ∀ k ∈ (s.stackerMap l).list (wantedStream h.corner) (s.facing l p f h).1, ¬s.selectable l k) :
    s.decideHit l p f h = .reject .rejectPocket := by
  refine (if_neg ((gateServes_iff _).1 hg)).trans ?_
  rw [routeCheck_eq]
  exact if_neg fun ha => absurd ((available_iff _ _).1 ha) fun ⟨k, hm, hs⟩ => hk k hm hs

theorem decideHit_faces (hg : s.gateServes l p h.corner)
    (hk : ∃ k ∈ (s.stackerMap l).list (wantedStream h.corner) (s.facing l p f h).1, s.selectable l k) :
    s.decideHit l p f h
      = .face h (s.facing l p f h).1 (s.facing l p f h).2.1 (s.facing l p f h).2.2 (decide ((s.facing l p f h).2.1 = .booked)) := by
  refine (if_neg ((gateServes_iff _).1 hg)).trans ?_
  rw [routeCheck_eq]
  exact if_pos ((available_iff _ _).2 hk)

/-- The check that rejects a SCORED record. -/
theorem decision_rejectedBy {d : Disposition} (hr : s.rejectedBy l p d) : s.decision l p = .reject d := by
  cases d with
  | rejectDouble => exact decision_double hr
  | rejectLate =>
    obtain ⟨h1, h2, h3⟩ := hr
    exact decision_late h1 h2 h3
  | rejectScan | rejectNomark | rejectAmbiguous =>
    obtain ⟨f, scored, result⟩ := hr
    rw [decision_scored scored, result]
    rfl
  | rejectGate =>
    obtain ⟨f, h, scored, result, hg⟩ := hr
    rw [decision_scored scored, result]
    exact decideHit_gate hg
  | rejectPocket =>
    obtain ⟨f, h, scored, result, hg, hk⟩ := hr
    rw [decision_scored scored, result]
    exact decideHit_pocket hg hk
  | _ => exact hr.elim

end Checks

/-! ### The decision point (R104) -/

/-- The record at its decision point. -/
def Piece.deciding (p : Piece) : Piece := { p with decisionTaken := true }

theorem atDecision_eq (s : State) (l : Lane) (tag : Tag) :
    s.atDecision l tag = (s.modPiece l tag Piece.deciding).settleScan l tag := rfl

/-- The checks do not read whether the point has been taken. -/
theorem decision_deciding (s : State) (l : Lane) (p : Piece) (tag : Tag) :
    (s.modPiece l tag Piece.deciding).decision l p.deciding = s.decision l p := by cases l <;> rfl

/-- A decision point that is there to be taken: the record, its scan settled, is decided. -/
theorem decisionPoint_next {s : State} {l : Lane} {p : Piece} (hd : Deciding s l p) :
    ∃ q, (s.modPiece l p.tag Piece.deciding).Rescanned (s.atDecision l p.tag) ∧ p.deciding.Rescanned q
      ∧ (p.scan = .scored → s.atDecision l p.tag = s.modPiece l p.tag Piece.deciding ∧ q = p.deciding)
      ∧ exec (.decisionPoint l p.tag) s = .next ((s.atDecision l p.tag).decidePiece l q) := by
  have hdue : (s.lane l).decisionDue (s.geometry l) p = true := by
    unfold LaneS.decisionDue
    have older : ((s.lane l).list.takeWhile fun q => q.tag != p.tag).all Piece.decisionTaken = true := by
      rw [List.all_eq_true]
      intro q hq
      refine hd.older q ?_
      convert hq using 3
      rename_i r
      by_cases hr : r.tag = p.tag <;> simp [hr]
    have due : reached (s.lane l).belt (advance p.lead (s.geometry l).dDecide) = true := hd.reached
    rw [hd.active, hd.untaken, older, due]
    rfl
  have taken : (s.modPiece l p.tag Piece.deciding).piece? l p.tag = some p.deciding := piece?_modPiece hd.here _ fun _ => rfl
  have rescanned := settleScan_rescanned (s.modPiece l p.tag Piece.deciding) l p.tag
  obtain ⟨q, hq, step⟩ := decisionPoint_eq hd.here hdue
  obtain ⟨q', hq', hr⟩ := piece?_rescanned rescanned taken
  rw [atDecision_eq, hq', Option.some.injEq] at hq
  subst hq
  refine ⟨q', rescanned, hr, fun hs => ?_, step⟩
  have same : s.atDecision l p.tag = s.modPiece l p.tag Piece.deciding := settleScan_scored taken hs
  refine ⟨same, ?_⟩
  rw [← atDecision_eq, same, taken, Option.some.injEq] at hq'
  exact hq'.symm

/-- Frames of a decision that all find a place (R113). -/
theorem placeAll_room {s : State} (hf : s.FramesFiled) {l : Lane} (ha : (s.lane l).active = true) (ms : List ActMsg)
    (hp : s.Places l ms.length) : Effect s (s.placeAll l ms) s [] (actsFor l (ms.map (s.actFrame l))) := by
  have all (ms : List ActMsg) {t : State} {fs : List OutFrame} (h : Effect s t s [] (actsFor l fs)) (ht : t.Places l ms.length) :
      Effect s (t.placeAll l ms) s [] (actsFor l (fs ++ ms.map (s.actFrame l))) := by
    induction ms generalizing t fs with
    | nil => simpa [State.placeAll] using h
    | cons m ms ih =>
      have hlane : t.lane l = s.lane l := by rw [State.eq_withTraffic h.quiet]; rfl
      have hroom : (t.link.act.get l).length < 8 := by
        unfold State.Places Config.actDepth at ht
        simp only [List.length_cons] at ht
        omega
      have joined := h.thenAct l m
      rw [bothActs_actsFor] at joined
      rw [placeAll_cons (by rw [hlane]; exact not_jammed_of_active ha), placeAct_room hroom]
      have own := (Effect.refl h.filed).thenAct l m
      have rest := ih joined (own.placesLeft ht (by simp [actsFor]))
      rw [List.append_assoc] at rest
      exact rest
  simpa using all ms (fs := []) (by rw [actsFor_nil]; exact .refl hf) hp

/-- A decision whose frames all find a place leaves what it settles, with free_pos moved. -/
theorem decidePiece_room {s t : State} {l : Lane} {q : Piece} {d : Decision} (hf : s.FramesFiled)
    (hd : t.decision l q = d)
    (h1 : ((t.settle l q d).updateFreePos l q).link = s.link) (h2 : ((t.settle l q d).updateFreePos l q).reports = s.reports)
    (ha : (((t.settle l q d).updateFreePos l q).lane l).active = true) (hp : s.Places l (t.decisionMsgs l q d).length) :
    Effect s (t.decidePiece l q) ((t.settle l q d).updateFreePos l q) [] (actsFor l ((t.decisionMsgs l q d).map (s.actFrame l))) := by
  have moved : Effect s ((t.settle l q d).updateFreePos l q) ((t.settle l q d).updateFreePos l q) [] noActs :=
    .inside hf (by rw [h1]) (by rw [h1]) (by rw [h1]) (by rw [h2])
  have placed := moved.trans (placeAll_room moved.filed ha (t.decisionMsgs l q d) (by unfold State.Places at *; rwa [h1]))
  rw [bothActs_noActs_left, List.nil_append] at placed
  have hframe (m : ActMsg) : ((t.settle l q d).updateFreePos l q).actFrame l m = s.actFrame l m := by
    unfold State.actFrame
    rw [h1]
  rw [List.map_congr_left fun m _ => hframe m] at placed
  unfold State.decidePiece
  rw [hd]
  exact placed

/-! ### The statement of O29 -/

/-- The check that rejects a record rejects it once its scan has been settled. -/
theorem decision_settled {s t : State} {l : Lane} {p q : Piece} {d : Disposition} (hr : s.rejectedBy l p d)
    (hq : p.deciding.Rescanned q) (hs : p.scan = .scored → t = s.modPiece l p.tag Piece.deciding ∧ q = p.deciding) :
    t.decision l q = .reject d := by
  have scored (h : p.scan = .scored) : t.decision l q = .reject d := by
    obtain ⟨rfl, rfl⟩ := hs h
    exact (decision_deciding s l p p.tag).trans (decision_rejectedBy hr)
  have hshingled : q.shingled = p.shingled := by rw [hq.same]; rfl
  have hoverlength : q.overlength = p.overlength := by rw [hq.same]; rfl
  cases d with
  | rejectDouble => exact decision_double (by rw [hshingled, hoverlength]; exact hr)
  | rejectLate =>
    obtain ⟨h1, h2, h3⟩ := hr
    exact decision_late (hshingled.trans h1) (hoverlength.trans h2) fun h => h3 (hq.scored h)
  | rejectScan | rejectNomark | rejectAmbiguous =>
    obtain ⟨f, hf, -⟩ := hr
    exact scored hf.scan
  | rejectGate | rejectPocket =>
    obtain ⟨f, h, hf, -⟩ := hr
    exact scored hf.scan
  | _ => exact hr.elim

/-- A lane that has rejected a record: the record, the window's LATE count and free_pos (R109, R110). -/
def LaneS.rejecting (tag : Tag) (d : Disposition) (free : Pos) (y : LaneS) : LaneS :=
  { y with
    list :=
      y.list.map fun q =>
        if q.tag = tag then
          { q with disposition := some d, stream := some .x, route := some .reject, gate := some y.gate.setting }
        else q
    gate := { y.gate with freePos := free }
    window := if d = .rejectLate then y.window.map Window.later else y.window }

theorem settle_reject_eq (s : State) (l : Lane) (q : Piece) (d : Disposition) :
    (s.settle l q (.reject d)).updateFreePos l q
      = s.modLane l (LaneS.rejecting q.tag d
          (advance (gatePos (s.geometry l) q) (extent (s.geometry l) (s.lane l).eye q + (s.geometry l).gateSettle))) := by
  unfold State.settle State.countLate State.updateFreePos State.modPiece State.countWindow
  dsimp only
  by_cases hd : d = .rejectLate
  · rw [if_pos hd, State.modLane_modLane, State.modLane_modLane]
    refine modLane_congr ?_
    unfold LaneS.rejecting
    rw [if_pos hd]
    rfl
  · rw [if_neg hd, State.modLane_modLane]
    refine modLane_congr ?_
    unfold LaneS.rejecting
    rw [if_neg hd]
    rfl

/-- Settles O29: the record's scan is settled, the check is found, and the one frame finds its place. -/
theorem decisionRejectsByFirstCheck : Obligations.DecisionRejectsByFirstCheck := by
  refine ⟨fun g eye p => ⟨fun n hn => ?_, fun st hn he => ?_⟩, fun s l p d hd hr room => ?decide⟩
  · unfold extent
    rw [hn]
  · unfold extent
    rw [hn, he]
    rfl
  case decide =>
    intro g ext
    obtain ⟨q, rescanned, hq, hscored, step⟩ := decisionPoint_next hd
    generalize ht : s.atDecision l p.tag = t at rescanned hscored step
    have hdec := decision_settled (t := t) hr hq hscored
    have hlink : t.link = s.link := by rw [rescanned.outside]; rfl
    have hreports : t.reports = s.reports := by rw [rescanned.outside]; rfl
    have hstore : t.store = s.store := by rw [rescanned.outside]; rfl
    have hgeo : t.geometry l = s.geometry l := by unfold State.geometry; rw [hstore]
    have hlane : t.lane l = { s.lane l with list := (t.lane l).list } := by
      rw [rescanned.lane l]
      unfold State.modPiece
      rw [State.modLane_lane]
    have heye : (t.lane l).eye = (s.lane l).eye := by rw [hlane]
    have htag : q.tag = p.tag := by rw [hq.same]; rfl
    have hlead : q.lead = p.lead := by rw [hq.same]; rfl
    have hext : extent (s.geometry l) (s.lane l).eye q = ext := by rw [hq.same]; rfl
    have hgate : gatePos (s.geometry l) q = g := by unfold gatePos; rw [hlead]; rfl
    have hset := settle_reject_eq t l q d
    rw [hgeo, heye, hext, hgate, htag] at hset
    have hmsgs : t.decisionMsgs l q (.reject d) = [.divert p.tag .x g (g + BitVec.ofNat 24 ext)] := by
      show [divertMsg (t.geometry l) (t.lane l).eye q (.reject d)] = _
      unfold divertMsg
      rw [hgeo, heye, hext, hgate, htag]
      rfl
    have hactive : (((t.settle l q (.reject d)).updateFreePos l q).lane l).active = true := by
      rw [hset, State.modLane_lane, hlane]
      exact hd.active
    have effect := decidePiece_room room.filed hdec (by rw [hset]; exact hlink) (by rw [hset]; exact hreports) hactive
      (by rw [hmsgs]; exact room.places)
    rw [hmsgs, hset] at effect
    subst ht
    exact effect.gives step

end Sys2Proof.Machine

/-! O30: a decision that faces a piece. -/

namespace Sys2Proof.Machine

/-- A lane at the commit of a faced record, but for the head and the counters: the record's fields and
the gate (R108, R110). -/
def LaneS.committed (tag : Tag) (f : Piece → Piece) (w : GateSetting) (free : Pos) (y : LaneS) : LaneS :=
  { y with list := modTagged tag f y.list, gate := { setting := w, freePos := free } }

/-- The counter of a stamp that cannot be struck (R108). -/
def LaneCounters.unstruck (cancel : CancelState) (c : LaneCounters) : LaneCounters :=
  match cancel with
  | .missed => { c with missed := satInc Config.max32 c.missed }
  | .suppressed _ => { c with suppressed := satInc Config.max32 c.suppressed }
  | _ => c

theorem countUnstruck_eq (s : State) (l : Lane) (cancel : CancelState) :
    s.countUnstruck l cancel = s.modLane l fun y => { y with counters := y.counters.unstruck cancel } := by
  cases cancel with
  | missed | suppressed => rfl
  | nothing | booked | struck | notRequired => exact (State.modLane_id s l _ rfl).symm

section Commit

variable (s : State) (l : Lane) (p : Piece) (h : Hit) (route : RouteClass) (cancel : CancelState) (d : Disposition)

/-- Where free_pos goes after a decision (R110). -/
def State.gateFree (s : State) (l : Lane) (p : Piece) : Pos :=
  advance (gatePos (s.geometry l) p) (extent (s.geometry l) (s.lane l).eye p + (s.geometry l).gateSettle)

/-- A commit that books no strike (R108). -/
theorem settle_face_unbooked :
    ((s.modPiece l p.tag Piece.deciding).settle l p.deciding (.face h route cancel d false)).updateFreePos l p.deciding
      = s.modLane l fun y =>
        { y.committed p.tag (fun q => q.deciding.faced h route cancel d) (wantedSetting h.corner) (s.gateFree l p) with
          counters := y.counters.unstruck cancel } := by
  unfold State.settle State.updateFreePos
  dsimp only
  rw [if_neg Bool.false_ne_true, countUnstruck_eq]
  unfold State.modPiece
  iterate 4 rw [State.modLane_modLane]
  refine modLane_congr ?_
  dsimp only
  rw [show p.deciding.tag = p.tag from rfl, modTagged_modTagged (f := Piece.deciding) fun _ => rfl]
  rfl

/-- A commit that books a strike (R108, R119). -/
theorem settle_face_booked :
    ((s.modPiece l p.tag Piece.deciding).settle l p.deciding (.face h route .booked d true)).updateFreePos l p.deciding
      = s.modLane l fun y =>
        let start := strikeStartPos (s.geometry l) (wantedHead h.corner) p.lead h.stampStart
        { y.committed p.tag
            (fun q => Piece.faced h route .booked d { q.deciding with cancel := .booked, strikeStart := some start })
            (wantedSetting h.corner) (s.gateFree l p) with
          heads :=
            y.heads.set (wantedHead h.corner)
              ((y.heads.get (wantedHead h.corner)).book (s.geometry l) (s.newStrike l (wantedHead h.corner) p.tag start)) } := by
  unfold State.settle State.updateFreePos State.book
  dsimp only
  rw [if_pos rfl, countUnstruck_eq]
  unfold State.modPiece State.modHead
  iterate 6 rw [State.modLane_modLane]
  refine modLane_congr ?_
  dsimp only
  have fields (start : Pos) : modTagged p.tag (Piece.faced h route .booked d)
      (modTagged p.tag (fun q => { q with cancel := .booked, strikeStart := some start })
        (modTagged p.tag Piece.deciding (s.lane l).list))
      = modTagged p.tag
        (fun q => Piece.faced h route .booked d { q.deciding with cancel := .booked, strikeStart := some start })
        (s.lane l).list := by
    rw [modTagged_modTagged (f := Piece.deciding) fun _ => rfl]
    exact modTagged_modTagged (by intro q; rfl) _
  exact congrArg (fun ps : List Piece =>
    { s.lane l with
      list := ps
      gate := { setting := wantedSetting h.corner, freePos := s.gateFree l p }
      heads :=
        (s.lane l).heads.set (wantedHead h.corner)
          (((s.lane l).heads.get (wantedHead h.corner)).book (s.geometry l)
            (s.newStrike l (wantedHead h.corner) p.tag
              (strikeStartPos (s.geometry l) (wantedHead h.corner) p.lead h.stampStart))) }) (fields _)

/-- The frames of a commit: GATE, STRIKE and DIVERT (R111 to R113). -/
theorem decisionMsgs_face (book : Bool) :
    (s.modPiece l p.tag Piece.deciding).decisionMsgs l p.deciding (.face h route cancel d book)
      = gateMsgs (s.geometry l) (s.lane l).gate.setting p (.face h route cancel d book)
        ++ s.strikeMsgs l p (.face h route cancel d book)
        ++ [divertMsg (s.geometry l) (s.lane l).eye p (.face h route cancel d book)] := by cases l <;> cases book <;> rfl

end Commit

theorem decisionMsgs_face_length (s : State) (l : Lane) (p : Piece) (d : Decision) : (s.decisionMsgs l p d).length ≤ 3 := by
  have hgate (g : Geometry) (w : GateSetting) : (gateMsgs g w p d).length ≤ 1 := by
    unfold gateMsgs
    split
    · exact Nat.zero_le 1
    · split <;> simp
  have hstrike : (s.strikeMsgs l p d).length ≤ 1 := by
    unfold State.strikeMsgs
    split <;> simp
  have := hgate (s.geometry l) (s.lane l).gate.setting
  unfold State.decisionMsgs
  simp only [List.length_append, List.length_singleton]
  omega

/-- A commit whose frames all find a place. -/
theorem decisionPoint_faces {s : State} {l : Lane} {p : Piece} {h : Hit} {route : RouteClass} {cancel : CancelState}
    {d : Disposition} {book : Bool} (hd : Deciding s l p) (scan : p.scan = .scored)
    (hdec : s.decision l p = .face h route cancel d book) (room : s.Room l 0 3) {f : LaneS → LaneS}
    (hset : ((s.modPiece l p.tag Piece.deciding).settle l p.deciding (.face h route cancel d book)).updateFreePos l p.deciding
      = s.modLane l f) (hf : (f (s.lane l)).active = true) :
    Gives (.decisionPoint l p.tag) s (s.modLane l f) []
      (actsFor l
        ((gateMsgs (s.geometry l) (s.lane l).gate.setting p (.face h route cancel d book)
          ++ s.strikeMsgs l p (.face h route cancel d book)
          ++ [divertMsg (s.geometry l) (s.lane l).eye p (.face h route cancel d book)]).map (s.actFrame l))) := by
  obtain ⟨q, -, -, hscored, step⟩ := decisionPoint_next hd
  obtain ⟨ht, rfl⟩ := hscored scan
  rw [ht] at step
  have places : s.Places l
      ((s.modPiece l p.tag Piece.deciding).decisionMsgs l p.deciding (.face h route cancel d book)).length := by
    have h1 := decisionMsgs_face_length (s.modPiece l p.tag Piece.deciding) l p.deciding (.face h route cancel d book)
    have h2 := room.places
    unfold State.Places at *
    omega
  have effect := decidePiece_room room.filed ((decision_deciding s l p p.tag).trans hdec) (by rw [hset]; rfl) (by rw [hset]; rfl)
    (by rw [hset, State.modLane_lane]; exact hf) places
  rw [hset, decisionMsgs_face] at effect
  exact effect.gives step

theorem gateMsgs_map {g : Geometry} {old : GateSetting} {p : Piece} {h : Hit} {route : RouteClass} {cancel : CancelState}
    {d : Disposition} {book : Bool} {ms : List ActMsg} {m : ActMsg} (f : ActMsg → OutFrame) :
    (gateMsgs g old p (.face h route cancel d book) ++ ms ++ [m]).map f
      = (if wantedSetting h.corner = old then []
          else [f (.gate p.tag (wantedSetting h.corner) (gatePos g p - BitVec.ofNat 24 g.gateSettle) (gatePos g p))])
        ++ ms.map f ++ [f m] := by
  rw [List.map_append, List.map_append]
  congr 2
  by_cases hw : wantedSetting h.corner = old
  · rw [if_pos hw, show gateMsgs g old p (.face h route cancel d book) = [] from if_pos hw]
    rfl
  · rw [if_neg hw, show gateMsgs g old p (.face h route cancel d book) = [_] from if_neg hw]
    rfl

/-- Settles O30: the checks face the record, and the commit is taken with or without a strike. -/
theorem decisionCommitsFacedPiece : Obligations.DecisionCommitsFacedPiece := by
  refine ⟨⟨rfl, rfl, rfl, rfl, rfl, rfl, rfl, rfl⟩, fun s l p f h hd scored result hg hk room => ?_⟩
  have hdec : s.decision l p = .face h (s.facing l p f h).1 (s.facing l p f h).2.1 (s.facing l p f h).2.2
      (decide ((s.facing l p f h).2.1 = .booked)) := by
    rw [decision_scored scored, result]
    exact decideHit_faces hg hk
  generalize s.facing l p f h = facing at hdec
  obtain ⟨route, cancel, d⟩ := facing
  intro geo g ext w hd' route' cancel' disposition start common strike
  dsimp only at hdec
  by_cases hc : cancel = .booked
  · subst hc
    have given := decisionPoint_faces hd scored.scan hdec room (settle_face_booked s l p h route d) hd.active
    rw [gateMsgs_map] at given
    refine Eq.subst (motive := fun u => Gives _ s u [] _) (modLane_congr ?_) given
    rfl
  · rw [decide_eq_false hc] at hdec
    have given := decisionPoint_faces hd scored.scan hdec room (settle_face_unbooked s l p h route cancel d) hd.active
    rw [gateMsgs_map] at given
    refine Eq.subst (motive := fun a => Gives _ s _ [] (actsFor l a)) ?_
      (Eq.subst (motive := fun u => Gives _ s u [] _) (modLane_congr ?_) given)
    · rw [if_neg hc]
      rfl
    · cases cancel with
      | booked => exact absurd rfl hc
      | nothing | struck | missed | suppressed | notRequired => rfl

end Sys2Proof.Machine

/-! O36: the hits of the corners, the six cases of a finding, and the Signature lookup. -/

namespace Sys2Proof.Machine

/-! ### One corner (R85 to R89) -/

/-- A corner's results satisfy a profile, void or not (R89). -/
def CornerResult.satisfies (r : CornerResult) (p : Profile) : Prop :=
  p.enable = true ∧ p.scoreMin ≤ (r.channel p.channel).score ∧ (r.channel p.channel).score ≤ p.scoreMax
    ∧ p.runMin ≤ (r.channel p.channel).run ∧ (r.channel p.channel).run ≤ p.runMax

theorem hits_iff (p : Profile) (r : CornerResult) : hits p r = true ↔ r.isVoid = false ∧ r.satisfies p := by
  unfold hits CornerResult.satisfies
  simp only [Bool.and_eq_true, decide_eq_true_eq, Bool.not_eq_true']
  constructor
  · rintro ⟨⟨⟨enabled, scoreMin, scoreMax⟩, runMin, runMax⟩, filled⟩
    exact ⟨filled, enabled, scoreMin, scoreMax, runMin, runMax⟩
  · rintro ⟨filled, enabled, scoreMin, scoreMax, runMin, runMax⟩
    exact ⟨⟨⟨enabled, scoreMin, scoreMax⟩, runMin, runMax⟩, filled⟩

/-- The first profile number with a property. -/
theorem find_profileNumbers (P : Fin 8 → Bool) (n : Fin 8) :
    profileNumbers.find? P = some n ↔ P n = true ∧ ∀ k < n, P k = false := by
  have hlist : profileNumbers = List.finRange 8 := rfl
  have sorted : (List.finRange 8).Pairwise (· < ·) := List.pairwise_lt_finRange 8
  rw [hlist, List.find?_eq_some_iff_append]
  constructor
  · rintro ⟨hn, before, after, split, fails⟩
    refine ⟨hn, fun k hk => ?_⟩
    have hmem : k ∈ before ++ n :: after := split ▸ List.mem_finRange k
    rw [split] at sorted
    obtain ⟨-, hafter, -⟩ := List.pairwise_append.1 sorted
    rcases List.mem_append.1 hmem with h | h
    · simpa using fails k h
    · rcases List.mem_cons.1 h with rfl | h
      · exact absurd hk (lt_irrefl k)
      · exact absurd hk (lt_asymm ((List.pairwise_cons.1 hafter).1 k h))
  · rintro ⟨hn, first⟩
    obtain ⟨before, after, split⟩ := List.append_of_mem (List.mem_finRange n)
    rw [split] at sorted
    obtain ⟨-, -, hbefore⟩ := List.pairwise_append.1 sorted
    exact ⟨hn, before, after, split, fun k hk => by simp [first k (hbefore k hk n (List.mem_cons_self ..))]⟩

/-- A corner's hit is its lowest-numbered satisfied profile, none for a void corner (R89). -/
theorem scoreCorner_hit (t : Tables) (m : Nat) (refs : Refs) (w : List (Option Sample)) (n : Fin 8) :
    (scoreCorner t m refs w).hit = some n ↔ (scoreCorner t m refs w).isVoid = false
      ∧ (scoreCorner t m refs w).satisfies (t.profiles.get n)
      ∧ ∀ k < n, ¬(scoreCorner t m refs w).satisfies (t.profiles.get k) := by
  refine (find_profileNumbers (fun k => hits (t.profiles.get k) (scoreCorner t m refs w)) n).trans ?_
  simp only [← Bool.not_eq_true, hits_iff]
  constructor
  · rintro ⟨⟨filled, own⟩, first⟩
    exact ⟨by simpa using filled, own, fun k hk hs => first k hk ⟨filled, hs⟩⟩
  · rintro ⟨filled, own, first⟩
    exact ⟨⟨by simpa using filled, own⟩, fun k hk hs => first k hk hs.2⟩

/-! ### The corners with hits (R90) -/

def corners : List Corner := [.c1, .c2, .c3, .c4]

theorem mem_corners (c : Corner) : c ∈ corners := by cases c <;> decide

theorem cornerHits_eq (t : Tables) (rs : PerCorner CornerResult) :
    cornerHits t rs = corners.filterMap fun c => cornerHit t c (rs.get c) := by
  show (corners.map fun c => cornerHit t c (rs.get c)).filterMap id = _
  rw [List.filterMap_map]
  rfl

theorem cornerHit_eq_some {t : Tables} {c : Corner} {r : CornerResult} {h : CornerHit} (hh : cornerHit t c r = some h) :
    h.corner = c ∧ ∃ n, r.hit = some n ∧ h.profile = n ∧ h.score = (r.channel (t.profiles.get n).channel).score
      ∧ h.run = (r.channel (t.profiles.get n).channel).run ∧ h.first = (r.channel (t.profiles.get n).channel).first := by
  unfold cornerHit at hh
  obtain ⟨n, hn, rfl⟩ := Option.map_eq_some_iff.1 hh
  exact ⟨rfl, n, hn, rfl, rfl, rfl, rfl⟩

theorem mem_cornerHits {t : Tables} {rs : PerCorner CornerResult} {h : CornerHit} :
    h ∈ cornerHits t rs ↔ cornerHit t h.corner (rs.get h.corner) = some h := by
  rw [cornerHits_eq, List.mem_filterMap]
  constructor
  · rintro ⟨c, -, hc⟩
    rwa [(cornerHit_eq_some hc).1]
  · exact fun hh => ⟨h.corner, mem_corners _, hh⟩

/-- No two hits are of one corner. -/
theorem cornerHits_inj {t : Tables} {rs : PerCorner CornerResult} {h k : CornerHit} (hh : h ∈ cornerHits t rs)
    (hk : k ∈ cornerHits t rs) (e : k.corner = h.corner) : k = h := by
  rw [mem_cornerHits] at hh hk
  rw [e, hh] at hk
  exact (Option.some.inj hk).symm

theorem cornerHits_nodup (t : Tables) (rs : PerCorner CornerResult) : ((cornerHits t rs).map CornerHit.corner).Nodup := by
  have distinct : (cornerHits t rs).Nodup := by
    rw [cornerHits_eq]
    refine List.Nodup.filterMap (fun a b h ha hb => ?_) (by decide)
    exact (cornerHit_eq_some ha).1.symm.trans (cornerHit_eq_some hb).1
  exact distinct.map_on fun a ha b hb e => cornerHits_inj hb ha e

/-- The best hit is one of the hits, and none has a higher score. -/
theorem bestHit_eq_some {hs : List CornerHit} {b : CornerHit} (h : bestHit hs = some b) :
    b ∈ hs ∧ ∀ k ∈ hs, k.score ≤ b.score := by
  induction hs generalizing b with
  | nil => cases h
  | cons x xs ih =>
    unfold bestHit at h
    cases hx : bestHit xs with
    | none =>
      rw [hx] at h
      cases h
      cases xs with
      | nil => exact ⟨List.mem_cons_self .., fun k hk => by rw [List.mem_singleton.1 hk]⟩
      | cons y ys =>
        exfalso
        unfold bestHit at hx
        split at hx
        · cases hx
        · split at hx <;> cases hx
    | some c =>
      rw [hx] at h
      obtain ⟨hmem, hbest⟩ := ih hx
      by_cases hc : x.score < c.score
      · have e : c = b := Option.some.inj ((if_pos hc).symm.trans h)
        subst e
        refine ⟨List.mem_cons_of_mem _ hmem, fun k hk => ?_⟩
        rcases List.mem_cons.1 hk with rfl | hk
        · exact Nat.le_of_lt hc
        · exact hbest k hk
      · have e : x = b := Option.some.inj ((if_neg hc).symm.trans h)
        subst e
        refine ⟨List.mem_cons_self .., fun k hk => ?_⟩
        rcases List.mem_cons.1 hk with rfl | hk
        · exact Nat.le_refl _
        · exact Nat.le_trans (hbest k hk) (Nat.le_of_not_lt hc)

theorem bestHit_some {hs : List CornerHit} (h : hs ≠ []) : ∃ b, bestHit hs = some b := by
  cases hs with
  | nil => exact absurd rfl h
  | cons x xs =>
    unfold bestHit
    cases bestHit xs with
    | none => exact ⟨x, rfl⟩
    | some c =>
      by_cases hc : x.score < c.score
      · exact ⟨c, if_pos hc⟩
      · exact ⟨x, if_neg hc⟩

theorem topScore_le (hs : List CornerHit) (n : Nat) : 2 * topScore hs ≤ n ↔ ∀ k ∈ hs, 2 * k.score ≤ n := by
  have all (xs : List Nat) (a : Nat) : 2 * xs.foldl max a ≤ n ↔ 2 * a ≤ n ∧ ∀ x ∈ xs, 2 * x ≤ n := by
    induction xs generalizing a with
    | nil => simp
    | cons x xs ih =>
      rw [List.foldl_cons, ih, List.forall_mem_cons, ← and_assoc]
      refine and_congr_left fun _ => ?_
      omega
  unfold topScore
  rw [all]
  simp

/-! ### The six cases (R90) -/

section Cases

variable {t : Tables} {j : Job} {rs : PerCorner CornerResult}

theorem void_iff : (rs.c1.isVoid && rs.c2.isVoid && rs.c3.isVoid && rs.c4.isVoid) = true ↔ ∀ c, (rs.get c).isVoid = true := by
  simp only [Bool.and_eq_true]
  constructor
  · rintro ⟨⟨⟨h1, h2⟩, h3⟩, h4⟩ c
    cases c <;> assumption
  · exact fun h => ⟨⟨⟨h .c1, h .c2⟩, h .c3⟩, h .c4⟩

theorem verdict_void (h : ∀ c, (rs.get c).isVoid = true) (hs : List CornerHit) : verdict rs hs = .noData :=
  if_pos (void_iff.2 h)

theorem verdict_nil (h : ¬∀ c, (rs.get c).isVoid = true) : verdict rs [] = .noMark := if_neg fun hv => h (void_iff.1 hv)

/-- The hits of the corners other than the best one. -/
def othersOf (b : CornerHit) (hs : List CornerHit) : List CornerHit := hs.filter fun h => h.corner != b.corner

theorem mem_othersOf {b k : CornerHit} {hs : List CornerHit} : k ∈ othersOf b hs ↔ k ∈ hs ∧ k.corner ≠ b.corner := by
  unfold othersOf
  rw [List.mem_filter, bne_iff_ne]

theorem verdict_best (h : ¬∀ c, (rs.get c).isVoid = true) {hs : List CornerHit} {b : CornerHit} (hb : bestHit hs = some b) :
    verdict rs hs
      = if (othersOf b hs).isEmpty then .hit b false
        else if (othersOf b hs).any fun h => h.score == b.score then .ambiguous
        else if 2 * topScore (othersOf b hs) ≤ b.score then .hit b true else .ambiguous := by
  unfold verdict
  rw [if_neg fun hv => h (void_iff.1 hv), hb]
  rfl

/-- A hit that outscores every other corner by 2 wins, with MULTI where there is another (R90). -/
theorem verdict_wins (hv : ¬∀ c, (rs.get c).isVoid = true) {h : CornerHit} (hh : h ∈ cornerHits t rs)
    (hwin : ∀ k ∈ cornerHits t rs, k.corner ≠ h.corner → k.score < h.score ∧ 2 * k.score ≤ h.score) :
    verdict rs (cornerHits t rs) = .hit h (decide (1 < (cornerHits t rs).length)) := by
  obtain ⟨b, hb⟩ := bestHit_some (List.ne_nil_of_mem hh)
  obtain ⟨hmem, hbest⟩ := bestHit_eq_some hb
  have e : b = h := by
    by_contra hne
    have hc : b.corner ≠ h.corner := fun he => hne (cornerHits_inj hh hmem he)
    exact absurd (hbest h hh) (Nat.not_le_of_lt (hwin b hmem hc).1)
  subst e
  rw [verdict_best hv hb]
  have count : (cornerHits t rs).length = (othersOf b (cornerHits t rs)).length + 1 := by
    have one : ((cornerHits t rs).map CornerHit.corner).count b.corner = 1 :=
      List.count_eq_one_of_mem (cornerHits_nodup t rs) (List.mem_map_of_mem hmem)
    have parts := List.length_eq_countP_add_countP (fun k : CornerHit => k.corner == b.corner) (l := cornerHits t rs)
    have own : (cornerHits t rs).countP (fun k => k.corner == b.corner) = 1 := by
      rw [← one, List.count, List.countP_map]
      rfl
    have rest : (othersOf b (cornerHits t rs)).length = (cornerHits t rs).countP fun k => !(k.corner == b.corner) := by
      rw [List.countP_eq_length_filter]
      rfl
    rw [parts, own, rest, Nat.add_comm]
    congr 1
    refine List.countP_congr fun k _ => ?_
    simp
  cases ho : othersOf b (cornerHits t rs) with
  | nil =>
    rw [ho] at count
    rw [count]
    rfl
  | cons k ks =>
    have hother (x : CornerHit) (hx : x ∈ k :: ks) : x.score < b.score ∧ 2 * x.score ≤ b.score := by
      obtain ⟨h1, h2⟩ := mem_othersOf.1 (ho ▸ hx)
      exact hwin x h1 h2
    rw [if_neg (by simp), if_neg ?ties, if_pos ((topScore_le _ _).2 fun x hx => (hother x hx).2), count, ho]
    · simp
    case ties =>
      rw [List.any_eq_true]
      rintro ⟨x, hx, he⟩
      have := (hother x hx).1
      rw [beq_iff_eq] at he
      omega

/-- Hits of which each is matched or nearly matched by another corner are AMBIGUOUS (R90). -/
theorem verdict_ambiguous (hv : ¬∀ c, (rs.get c).isVoid = true) (hne : cornerHits t rs ≠ [])
    (hclose : ∀ h ∈ cornerHits t rs, ∃ k ∈ cornerHits t rs, k.corner ≠ h.corner ∧ (h.score ≤ k.score ∨ h.score < 2 * k.score)) :
    verdict rs (cornerHits t rs) = .ambiguous := by
  obtain ⟨b, hb⟩ := bestHit_some hne
  obtain ⟨hmem, hbest⟩ := bestHit_eq_some hb
  obtain ⟨k, hk, hc, hscore⟩ := hclose b hmem
  have hk' : k ∈ othersOf b (cornerHits t rs) := mem_othersOf.2 ⟨hk, hc⟩
  rw [verdict_best hv hb, if_neg (by rw [List.isEmpty_iff]; exact List.ne_nil_of_mem hk')]
  by_cases ht : ((othersOf b (cornerHits t rs)).any fun h => h.score == b.score) = true
  · exact if_pos ht
  · rw [if_neg ht]
    refine if_neg fun htop => ?_
    have h2 := (topScore_le _ _).1 htop k hk'
    have hle := hbest k hk
    rcases hscore with h | h
    · exact ht (List.any_eq_true.2 ⟨k, hk', beq_iff_eq.2 (Nat.le_antisymm hle h)⟩)
    · omega

end Cases

/-! ### The lookup (R94, R95) -/

/-- An entry has the signature key of a hit. -/
def SigEntry.named (h : CornerHit) (e : SigEntry) : Prop :=
  e.key.profile = h.profile ∧ e.key.width.val = min (h.run / 8) 31 ∧ e.key.band.val = min (h.score / 1024) 63

theorem named_iff (h : CornerHit) (e : SigEntry) : (e.key == signatureKey h) = true ↔ e.named h := by
  rw [beq_iff_eq]
  obtain ⟨⟨p, w, b⟩, _, _, _⟩ := e
  unfold signatureKey SigEntry.named clampFin
  rw [SigKey.mk.injEq, Fin.ext_iff (a := w), Fin.ext_iff (a := b)]

theorem lookup_absent {h : CornerHit} {es : List SigEntry} (hn : ∀ e ∈ es, ¬e.named h) :
    lookup es (signatureKey h) = (63, 0, false) := by
  unfold lookup
  rw [List.find?_eq_none.2 fun e he hk => hn e he ((named_iff h e).1 hk)]

theorem lookup_present {h : CornerHit} {es : List SigEntry} {e : SigEntry} (he : e ∈ es) (hn : e.named h)
    (one : ∀ e' ∈ es, e'.named h → e' = e) : lookup es (signatureKey h) = (e.category, e.value, e.precancel) := by
  unfold lookup
  cases hf : es.find? fun x => x.key == signatureKey h with
  | none => exact absurd ((named_iff h e).2 hn) (List.find?_eq_none.1 hf e he)
  | some x =>
    have hx := one x (List.mem_of_find?_eq_some hf) ((named_iff h x).1 (List.find?_some (p := fun y : SigEntry => y.key == signatureKey h) hf))
    rw [hx]

/-- The finding of a verdict (R90, R96). -/
def Verdict.finding (t : Tables) (j : Job) : Verdict → Finding
  | .noData => plainFinding .noData
  | .noMark => plainFinding .noMark
  | .ambiguous => plainFinding .ambiguous
  | .hit h multi => hitFinding t j h multi

theorem findingOf_eq (t : Tables) (j : Job) (rs : PerCorner CornerResult) :
    findingOf t j rs = (verdict rs (cornerHits t rs)).finding t j := by
  unfold findingOf
  cases verdict rs (cornerHits t rs) <;> rfl

/-- The record of a hit, with a category (R91). -/
def hitRecord (t : Tables) (j : Job) (h : CornerHit) (category : Option (Fin 64)) : Hit :=
  { corner := h.corner, profile := h.profile, kind := (t.profiles.get h.profile).kind, score := h.score, run := h.run
    stampStart := stampStart j h, category := category }

theorem hitFinding_plain {t : Tables} {j : Job} {h : CornerHit} {multi : Bool} (hk : (t.profiles.get h.profile).kind ≠ .stamp) :
    hitFinding t j h multi = ⟨.hit (hitRecord t j h none), 0, false, multi, false⟩ := by
  unfold hitFinding hitRecord
  cases hc : (t.profiles.get h.profile).kind with
  | stamp => exact absurd hc hk
  | meter | permit => rfl

theorem hitFinding_stamp {t : Tables} {j : Job} {h : CornerHit} {multi : Bool} (hk : (t.profiles.get h.profile).kind = .stamp) :
    hitFinding t j h multi
      = ⟨.hit (hitRecord t j h (some (lookup t.signature (signatureKey h)).1)), (lookup t.signature (signatureKey h)).2.1,
          (lookup t.signature (signatureKey h)).2.2, multi, false⟩ := by
  unfold hitFinding hitRecord
  rw [hk]

/-! ### The statement of O36 -/

/-- Settles O36: the corner, the job, the cases and the lookup. -/
theorem findingFollowsTheSixCases : Obligations.FindingFollowsTheSixCases := by
  refine ⟨fun t m refs w => ⟨rfl, rfl, ?void, fun n => ?hit⟩, fun t j c => by cases c <;> rfl, fun t j rs => ?cases⟩
  case void =>
    refine decide_eq_true_iff.trans ?_
    unfold missingCount
    rw [show (fun x : Option Sample => decide (x = none)) = Option.isNone from funext fun x => by cases x <;> rfl]
  case hit =>
    exact scoreCorner_hit t m refs w n
  case cases =>
    intro hs allVoid
    have reads (v : Verdict) (hv : verdict rs hs = v) : findingOf t j rs = v.finding t j := hv ▸ findingOf_eq t j rs
    refine ⟨fun h hh => ?_, fun c hc => ?_, fun hv => reads _ (verdict_void hv _), fun hv he => ?_, fun hv h hh hwin => ?_,
      fun hv hne hclose => ?_, fun h multi => ?lookup⟩
    · obtain ⟨-, n, hit, profile, score, run, first⟩ := cornerHit_eq_some (mem_cornerHits.1 hh)
      exact ⟨n, hit, profile, score, run, first⟩
    · obtain ⟨n, hn⟩ := Option.ne_none_iff_exists'.1 hc
      have hsome : ∃ h, cornerHit t c (rs.get c) = some h := ⟨_, by unfold cornerHit; rw [hn]; rfl⟩
      obtain ⟨h, hh⟩ := hsome
      have hcorner := (cornerHit_eq_some hh).1
      exact ⟨h, mem_cornerHits.2 (by rwa [hcorner]), hcorner⟩
    · exact reads .noMark ((congrArg (verdict rs) he).trans (verdict_nil hv))
    · exact reads _ (verdict_wins hv hh hwin)
    · exact reads _ (verdict_ambiguous hv hne hclose)
    case lookup =>
      intro kind first stamp hit
      have hstamp : stampStart j h = stamp := by
        unfold stampStart
        obtain ⟨c, _, _, _, _⟩ := h
        cases c <;> rfl
      have record (category : Option (Fin 64)) : FindingResult.hit (hitRecord t j h category) = hit category :=
        congrArg (fun n => FindingResult.hit { hitRecord t j h category with stampStart := n }) hstamp
      refine ⟨fun hk => ?_, fun hk => ⟨fun absent => ?_, fun e he hn one => ?_⟩⟩
      · rw [hitFinding_plain hk, record]
      · rw [hitFinding_stamp hk, lookup_absent absent, record]
      · rw [hitFinding_stamp hk, lookup_present he hn one, record]

end Sys2Proof.Machine

/-! O13: a line reset, by the RESET input and by LINE_RESET. -/

namespace Sys2Proof.Machine

/-! ### The blocks at a line reset (R35, R61, R173) -/

/-- A lane at a line reset, each pocket's inbound being right. -/
theorem LaneS.resetOwn_eq {x : LaneS} (hx : x.InboundRight) : x.resetOwn = x.afterReset := by
  unfold LaneS.resetOwn
  have e := LaneS.handOffs_all (way := .lineReset) (d := .resetLost) nofun (fun _ => rfl) (fun _ => rfl)
    (x := { x with heads := ⟨x.heads.l.emptied, x.heads.t.emptied⟩ }) (fun h => by cases h <;> rfl) hx
  exact congrArg LaneS.lineReset e

theorem resetLane_eq (s : State) (l : Lane) :
    s.resetLane l = (s.modLane l LaneS.resetOwn).latchChange (s.lane l).state := by
  unfold State.resetLane State.emptyBookings
  rw [retireAll_lineReset, handOffAll_lost_eq (way := .lineReset) nofun, State.modLane_modLane, State.modLane_modLane,
    State.modLane_lane]
  rfl

theorem resetStore_eq (s : State) :
    s.resetStore
      = if s.store.phase = .ready then s
        else
          { s with
            store := { s.store with phase := .ready, flags := s.store.flags ||| 0x40#7 }
            reports := { s.reports with latches := s.reports.latches ||| 0x400#11 } } := by
  unfold State.resetStore
  cases h : s.store.phase with
  | ready => rfl
  | staging | programming | suspended | nestedStaging | nestedProgramming => rfl

theorem withLatches_zero (s : State) : s.withLatches 0 = s := by
  unfold State.withLatches
  rw [show s.reports.latches ||| 0 = s.reports.latches from BitVec.or_zero]

/-- Both lanes changed, LANE_CHANGE set where one was not STOPPED (R61). -/
theorem latchChanges (s : State) (f g : LaneS → LaneS) (x y : LaneState) :
    (((s.modLane .a f).latchChange x).modLane .b g).latchChange y
      = ((s.modLane .a f).modLane .b g).withLatches (if x = .stopped ∧ y = .stopped then 0 else 0x001#11) := by
  have twice : s.reports.latches ||| 0x001#11 ||| 0x001#11 = s.reports.latches ||| 0x001#11 := by
    rw [BitVec.or_assoc, BitVec.or_self]
  have stays (u : State) {z : LaneState} (hz : z = .stopped) : u.latchChange z = u := if_pos hz
  have changes (u : State) {z : LaneState} (hz : z ≠ .stopped) : u.latchChange z = u.withLatches 0x001#11 := if_neg hz
  by_cases hx : x = .stopped
  · by_cases hy : y = .stopped
    · rw [stays _ hx, stays _ hy, if_pos ⟨hx, hy⟩, withLatches_zero]
    · rw [stays _ hx, changes _ hy, if_neg (fun h => hy h.2)]
  · rw [changes _ hx, if_neg (fun h => hx h.1)]
    by_cases hy : y = .stopped
    · rw [stays _ hy]
      rfl
    · rw [changes _ hy]
      exact congrArg (fun b => { (s.modLane .a f).modLane .b g with reports := { s.reports with latches := b } }) twice

/-- Every block after a line reset, the frames that waited being gone. -/
theorem resetBlocks_quiet {s : State} (hin : ∀ l, (s.lane l).InboundRight) :
    s.resetBlocks.drawn.quiet = s.afterReset.quiet := by
  have lanes : s.resetReports.resetStore.resetScan.lanes = s.lanes := (resetStore_keeps s.resetReports).2.2.1
  have blocks : s.resetBlocks
      = ((s.resetReports.resetStore.resetScan.modLane .a LaneS.afterReset).modLane .b LaneS.afterReset).withLatches
          (if s.lanes.a.state = .stopped ∧ s.lanes.b.state = .stopped then 0 else 0x001#11) := by
    have ha : s.resetReports.resetStore.resetScan.lane .a = s.lanes.a := congrArg PerLane.a lanes
    have hb (f : LaneS → LaneS) : (s.resetReports.resetStore.resetScan.modLane .a f).lane .b = s.lanes.b := by
      rw [State.modLane_lane_ne _ _ (by decide)]
      exact congrArg PerLane.b lanes
    have hb' (f : LaneS → LaneS) (st : LaneState) :
        ((s.resetReports.resetStore.resetScan.modLane .a f).latchChange st).lane .b = s.lanes.b := by
      refine Eq.trans ?_ (hb f)
      unfold State.lane
      rw [(latchChange_keeps _ _).2.2.1]
    have own {u : State} {l : Lane} (h : (u.lane l).InboundRight) : u.modLane l LaneS.resetOwn = u.modLane l LaneS.afterReset :=
      modLane_congr (LaneS.resetOwn_eq h)
    unfold State.resetBlocks
    rw [resetLane_eq _ .a, resetLane_eq _ .b, ha, hb', latchChanges, own (u := s.resetReports.resetStore.resetScan), own]
    · rw [hb]
      exact hin .b
    · rw [ha]
      exact hin .a
  rw [blocks, resetStore_eq]
  by_cases hp : s.store.phase = .ready
  · rw [if_pos (show s.resetReports.store.phase = .ready from hp)]
    unfold State.afterReset
    rw [if_pos hp, if_pos hp, show s.reports.latches ||| 0 = s.reports.latches from BitVec.or_zero]
    rfl
  · rw [if_neg (show ¬s.resetReports.store.phase = .ready from hp)]
    unfold State.afterReset
    rw [if_neg hp, if_neg hp]
    rfl

/-! ### The frames of a line reset (R61) -/

theorem resetFrames_effect {s t u : State} {r : List OutFrame} {a : Lane → List OutFrame} (h : Effect s t u r a) (l : Lane)
    (rate : FeedRate) :
    Effect s (resetFrames l rate t) u r
      (bothActs a (actsFor l (u.actFrame l .safe :: if rate = .hold then [] else [u.actFrame l (.feed .hold)]))) := by
  have safe := h.thenAct l .safe
  unfold resetFrames
  dsimp only
  by_cases hr : rate = .hold
  · rw [if_pos hr, if_pos hr]
    exact safe
  · rw [if_neg hr, if_neg hr]
    have feed := safe.thenAct l (.feed .hold)
    have joined : bothActs (bothActs a (actsFor l [u.actFrame l .safe])) (actsFor l [u.actFrame l (.feed .hold)])
        = bothActs a (actsFor l [u.actFrame l .safe, u.actFrame l (.feed .hold)]) := by
      rw [show [u.actFrame l .safe, u.actFrame l (.feed .hold)] = [u.actFrame l .safe] ++ [u.actFrame l (.feed .hold)] from rfl,
        ← bothActs_actsFor]
      funext m
      exact List.append_assoc ..
    rw [joined] at feed
    exact feed

/-- What a line reset leaves, and the frames it sends (R34, R35, R61). -/
theorem lineReset_effect {s : State} (hin : ∀ l, (s.lane l).InboundRight) :
    s.lineReset.quiet = s.afterReset.quiet
      ∧ s.lineReset.reportTraffic = s.link.sendingOwn.filter OutFrame.isReport
      ∧ (∀ l, s.lineReset.actTraffic l = s.link.sendingOwn.filter (OutFrame.forLane l) ++ s.resetActs l)
      ∧ s.lineReset.passTraffic = s.passTraffic ∧ s.lineReset.FramesFiled := by
  obtain ⟨u, hu⟩ : ∃ u, ((s.resetBlocks.emptyAct .a).emptyAct .b).drawn = u := ⟨_, rfl⟩
  have hb := resetBlocks_reset s
  have hqueue (l : Lane) : u.link.act.get l = [] := by rw [← hu]; cases l <;> rfl
  have hreports : u.reports.queued = [] := by rw [← hu]; exact hb.queued
  have hsending : u.link.sending = s.link.sending := by rw [← hu, ← hb.link]; rfl
  have hfifo : u.link.fifo = s.link.fifo := by rw [← hu, ← hb.link]; rfl
  have hstation : u.link.station = s.link.station := by rw [← hu, ← hb.link]; rfl
  have hquiet : u.quiet = s.afterReset.quiet := by
    have emptied (v : State) : ((v.emptyAct .a).emptyAct .b).drawn.quiet = v.drawn.quiet := rfl
    rw [← resetBlocks_quiet hin, ← hu, emptied]
  have filed : u.FramesFiled := ⟨fun l f hf => absurd (hqueue l ▸ hf) List.not_mem_nil,
    fun f hf => absurd (hreports ▸ hf) List.not_mem_nil⟩
  have frames (l : Lane) : u.actFrame l .safe :: (if (s.lane l).feedRate = .hold then [] else [u.actFrame l (.feed .hold)])
      = s.resetActs l := by
    have hframe (m : ActMsg) : u.actFrame l m = s.actFrame l m := by
      unfold State.actFrame
      rw [hstation]
    rw [hframe, hframe]
    rfl
  obtain ⟨a, ha, effect⟩ : ∃ a : Lane → List OutFrame, (∀ l, a l = s.resetActs l) ∧ Effect u s.lineReset u [] a := by
    have hstep : s.lineReset = if ((s.resetBlocks.emptyAct .a).emptyAct .b).choice
        then resetFrames .b (s.lane .b).feedRate (resetFrames .a (s.lane .a).feedRate u)
        else resetFrames .a (s.lane .a).feedRate (resetFrames .b (s.lane .b).feedRate u) := by
      rw [← hu]
      rfl
    rw [hstep]
    split
    · refine ⟨_, fun l => ?_, resetFrames_effect (resetFrames_effect (.refl filed) .a _) .b _⟩
      rw [frames, frames]
      cases l <;> simp [bothActs, noActs, actsFor]
    · refine ⟨_, fun l => ?_, resetFrames_effect (resetFrames_effect (.refl filed) .b _) .a _⟩
      rw [frames, frames]
      cases l <;> simp [bothActs, noActs, actsFor]
  have hown : u.link.sendingOwn = s.link.sendingOwn := by
    unfold Link.sendingOwn
    rw [hsending]
  refine ⟨effect.quiet.trans hquiet, ?_, fun l => ?_, effect.pass.trans ?_, effect.filed⟩
  · rw [effect.reports]
    unfold State.reportTraffic
    rw [hown, hreports, List.append_nil, List.append_nil]
  · rw [effect.acts, ha]
    unfold State.actTraffic
    rw [hown, hqueue, List.append_nil]
  · unfold State.passTraffic Link.sendingPassed
    rw [hsending, hfifo]

/-! ### The statement of O13 -/

/-- Settles O13: the RESET input by its level, and LINE_RESET with its answer. -/
theorem lineResetTakesResetValues : Obligations.LineResetTakesResetValues := by
  intro s hf hin
  obtain ⟨quiet, reports, acts, pass, filed⟩ := lineReset_effect hin
  refine ⟨fun h => ⟨{ s.lineReset with resetActive := true }, ?_, ?_, reports, acts, pass⟩, fun h => ?_, rfl, fun c he ha => ?command⟩
  · show Host.Outcome.next (if s.resetActive then s else _) = _
    rw [h]
    rfl
  · exact congrArg (fun u : State => { u with resetActive := true }) quiet
  · show Host.Outcome.next (if s.resetActive then s else _) = _
    rw [h]
    rfl
  case command =>
    obtain ⟨quiet', reports', acts', pass', -⟩ := State.queueReport_spec (f := s.lineReset.response c .done []) filed rfl
    have station : s.lineReset.response c .done [] = s.response c .done [] := by
      unfold State.response
      rw [(State.quiet_fields quiet).1]
      rfl
    refine ⟨s.lineReset.answerReset c, completion_next (act := fun s c _ => s.lineReset.answerReset c) he (congrArg noArgs ha),
      quiet'.trans quiet, ?_, fun l => (acts' l).trans (acts l), pass'.trans pass⟩
    rw [← station, ← reports]
    exact reports'

end Sys2Proof.Machine
